-- ==== Sys2Proof/Word.lean ====
section
/-! DEFINITION. The word type and the value types of 10_state.md section 2 and 41_mapping_and_raw_access.md. -/

namespace Sys2Proof

/-- A 32-bit register word (R6 `WORD_BITS`, R53). -/
abbrev Word := BitVec 32

/-- A valid pin: the pins are numbered 0 to 53 (R7). -/
abbrev Pin := Fin 54

/-- PullMode (R22): the three modes a pull configuration can ask for. -/
inductive PullMode
  | off
  | down
  | up
  deriving DecidableEq, Repr, Inhabited

/-- PinDirection (R21). -/
inductive PinDirection
  | input
  | output
  deriving DecidableEq, Repr, Inhabited

/-- PinLevel (R23). -/
inductive PinLevel
  | low
  | high
  deriving DecidableEq, Repr, Inhabited

/-- PullState (R24): the state of a pin's pull resistor, `indeterminate` being the electrically undefined one (R14). -/
inductive PullState
  | off
  | down
  | up
  | indeterminate
  deriving DecidableEq, Repr, Inhabited

/-- What the environment answers to an OPEN (R142). -/
inductive OpenOutcome
  | ok
  | openFail
  | mapFail
  deriving DecidableEq, Repr, Inhabited

/-- The parameter PIN_CHECK (R8). -/
inductive PinCheck
  | checked
  | unchecked
  deriving DecidableEq, Repr, Inhabited

end Sys2Proof
end

