-- ==== Sys2Proof/Config.lean ====
section
/-! DEFINITION. The parameters of R6 that no rule computes with, and the free values: opaque constants, one for each
kind of draw (R14). Nothing in Lean can evaluate them, so whatever is proved holds for every value of the draw. The
first `Nat` each takes is the number of the draw, so that nothing relates one draw to another. -/

namespace Sys2Proof

/-- NUM_CTRL (R6): its default. A state with another number of controllers is as good a state (log entry 3). -/
def Config.numCtrl : Nat := 1

/-- PIN_CHECK (R8): its default (log entry 3). -/
def Config.pinCheck : PinCheck := .checked

/-- DEVICE_PATH (R6, D34): an open parameter that no rule reads (log entry 23). -/
opaque Config.devicePath : String

/-- GPIO_BASE (R6, R51, D34): an open parameter that no rule reads (log entry 23). -/
opaque Config.gpioBase : Nat

/-- Free value: the reserved bits of a read of FSEL (R102, D11; log entry 5). -/
opaque Config.freeFsel : Nat → Word

/-- Free value: bits 31:2 of a read of PUD (R111, D22; log entry 5). -/
opaque Config.freePud : Nat → Word

/-- Free value: the level at each of the 64 pin positions of the two LEV registers when LEV is read, used for every
pin that is no output and for the reserved bits of LEV1 (R30, R109, D17; log entry 6). -/
opaque Config.padLevels : Nat → BitVec 64

/-- Free value: the outcome of an OPEN (R142, D25; log entry 7). -/
opaque Config.openOutcome : Nat → OpenOutcome

/-- Free value: the temporary `t` of a controller (the second argument) after reset and between commands (R39, D37; log
entries 8 and 9). -/
opaque Config.freeTemp : Nat → Nat → Word

/-- Free value: the function-select field of a pin (the second argument) after reset (R44, D24; log entry 9). -/
opaque Config.resetFsel : Nat → Nat → BitVec 3

/-- Free value: the output latch of a pin after reset (R44, D24; log entry 9). -/
opaque Config.resetLatch : Nat → Nat → Bool

/-- Free value: the pull state of a pin after reset, `indeterminate` among its values (R44, D40; log entry 9). -/
opaque Config.resetPull : Nat → Nat → PullState

end Sys2Proof
end

