-- ==== Sys2Proof/Machine/PinTable.lean ====
section
/-! DEFINITION. A table with one entry for each valid pin (R7, R20), made from a function of the pin. -/

namespace Sys2Proof.Machine

/-- The entries of a table for the `n` pins from `k` on. -/
def pinEntries {α : Type} (f : Pin → α) : (n k : Nat) → n + k = 54 → List α
  | 0, _, _ => []
  | n + 1, k, h => f ⟨k, by omega⟩ :: pinEntries f n (k + 1) (by omega)

/-- There are as many entries as pins. -/
theorem pinEntries_length {α : Type} (f : Pin → α) (n k : Nat) (h : n + k = 54) : (pinEntries f n k h).length = n := by
  induction n generalizing k with
  | zero => rfl
  | succ n ih => simp [pinEntries, ih]

/-- A table with one entry for each valid pin. -/
def pinTable {α : Type} (f : Pin → α) : Vector α 54 :=
  Vector.mk (Array.mk (pinEntries f 54 0 rfl)) (pinEntries_length f 54 0 rfl)

end Sys2Proof.Machine
end

