-- ==== Sys2Proof/Syntax.lean ====
section
/-! DEFINITION. The instruction set: one constructor for each row of spec/opcode_table.json (6 command words, 2
micro-ops, 32 bus transactions). -/

namespace Sys2Proof

/-- The instructions. A pin is the 32-bit identifier of the command word (R9, R82); whether it is valid is decided when
the command runs (R141). -/
inductive Instr
  /-- OPEN (R142). -/
  | openCmd
  /-- CLOSE (R143). -/
  | closeCmd
  /-- SET_PULL (R164, R165). -/
  | setPull (pin : BitVec 32) (mode : PullMode)
  /-- SETUP (R180). -/
  | setup (pin : BitVec 32) (dir : PinDirection) (mode : PullMode)
  /-- OUTPUT (R181). -/
  | output (pin : BitVec 32) (level : PinLevel)
  /-- INPUT (R182). -/
  | input (pin : BitVec 32)
  /-- READ_REG (R146); the index is an exact natural number and may exceed 1023 (R92). -/
  | readReg (i : Nat)
  /-- WRITE_REG (R147). -/
  | writeReg (i : Nat) (v : Word)
  /-- RD_FSEL0: read of word index 0 (R102). -/
  | rdFsel0
  /-- WR_FSEL0: write of word index 0 (R103). -/
  | wrFsel0 (v : Word)
  /-- RD_FSEL1: read of word index 1 (R102). -/
  | rdFsel1
  /-- WR_FSEL1: write of word index 1 (R103). -/
  | wrFsel1 (v : Word)
  /-- RD_FSEL2: read of word index 2 (R102). -/
  | rdFsel2
  /-- WR_FSEL2: write of word index 2 (R103). -/
  | wrFsel2 (v : Word)
  /-- RD_FSEL3: read of word index 3 (R102). -/
  | rdFsel3
  /-- WR_FSEL3: write of word index 3 (R103). -/
  | wrFsel3 (v : Word)
  /-- RD_FSEL4: read of word index 4 (R102). -/
  | rdFsel4
  /-- WR_FSEL4: write of word index 4 (R103). -/
  | wrFsel4 (v : Word)
  /-- RD_FSEL5: read of word index 5 (R102). -/
  | rdFsel5
  /-- WR_FSEL5: write of word index 5 (R103). -/
  | wrFsel5 (v : Word)
  /-- RD_SET0: read of word index 7 (R106). -/
  | rdSet0
  /-- WR_SET0: write of word index 7 (R105). -/
  | wrSet0 (v : Word)
  /-- RD_SET1: read of word index 8 (R106). -/
  | rdSet1
  /-- WR_SET1: write of word index 8 (R105). -/
  | wrSet1 (v : Word)
  /-- RD_CLR0: read of word index 10 (R108). -/
  | rdClr0
  /-- WR_CLR0: write of word index 10 (R107). -/
  | wrClr0 (v : Word)
  /-- RD_CLR1: read of word index 11 (R108). -/
  | rdClr1
  /-- WR_CLR1: write of word index 11 (R107). -/
  | wrClr1 (v : Word)
  /-- RD_LEV0: read of word index 13 (R109). -/
  | rdLev0
  /-- WR_LEV0: write of word index 13 (R110). -/
  | wrLev0 (v : Word)
  /-- RD_LEV1: read of word index 14 (R109). -/
  | rdLev1
  /-- WR_LEV1: write of word index 14 (R110). -/
  | wrLev1 (v : Word)
  /-- RD_PUD: read of word index 37 (R111). -/
  | rdPud
  /-- WR_PUD: write of word index 37 (R112). -/
  | wrPud (v : Word)
  /-- RD_PUDCLK0: read of word index 38 (R113). -/
  | rdPudclk0
  /-- WR_PUDCLK0: write of word index 38 (R114). -/
  | wrPudclk0 (v : Word)
  /-- RD_PUDCLK1: read of word index 39 (R113). -/
  | rdPudclk1
  /-- WR_PUDCLK1: write of word index 39 (R114). -/
  | wrPudclk1 (v : Word)
  /-- RD_UNLISTED: read of a word the source does not list (R119). -/
  | rdUnlisted (i : BitVec 10)
  /-- WR_UNLISTED: write of a word the source does not list (R119). -/
  | wrUnlisted (i : BitVec 10) (v : Word)
  deriving DecidableEq, Repr

end Sys2Proof
end

