-- ==== Sys2Proof/Machine/State.lean ====
section
/-! DEFINITION. The state as plain data (10_state.md), the reasons a step can stop, and the state after reset. -/

namespace Sys2Proof.Machine

/-- A command in flight (R37): the decoded command word. -/
inductive Command
  | openCmd
  | closeCmd
  | setPull (pin : BitVec 32) (mode : PullMode)
  | setup (pin : BitVec 32) (dir : PinDirection) (mode : PullMode)
  | output (pin : BitVec 32) (level : PinLevel)
  | input (pin : BitVec 32)
  deriving DecidableEq, Repr

/-- The register-file state, one copy shared by every controller (R20). -/
structure RegFile where
  /-- function-select field of each pin (R25) -/
  fsel : Vector (BitVec 3) 54
  /-- output latch of each pin (R27) -/
  latch : Vector Bool 54
  /-- staging value of the pull-control register (R31) -/
  pud : BitVec 2
  /-- whether the pull clock of each pin is asserted (R32) -/
  clk : Vector Bool 54
  /-- pull state of each pin (R33) -/
  pull : Vector PullState 54
  deriving DecidableEq, Repr

/-- One controller instance (R37) and the host attached to it (R5). -/
structure Ctrl where
  /-- whether it holds a mapping of the register window (R37) -/
  isOpen : Bool
  /-- the command in flight (R37) -/
  cmd : Option Command
  /-- the micro-op counter (R38) -/
  step : Nat
  /-- the temporary register (R39) -/
  t : Word
  /-- the response word last delivered to the host, none while a command is in flight (R89, R140; log entry 11) -/
  rsp : Option Word
  /-- the command words the host still has to give, in order (R216; log entry 12) -/
  pending : List (BitVec 64)
  deriving DecidableEq, Repr

/-- An access to the window by a bus master other than the controllers (R53, R54, D36). -/
structure ForeignAccess where
  write : Bool
  /-- width in bits -/
  width : Nat
  /-- byte offset in the window -/
  offset : Nat
  data : Word
  deriving DecidableEq, Repr

/-- Who moves next (R61; log entry 2). -/
inductive Turn
  /-- Controller `c` makes one step of R140: an issue step when idle, else a micro-op step. -/
  | ctrl (c : Nat)
  /-- Controller `c` makes its steps undisturbed to the end of its command (R64). -/
  | run (c : Nat)
  /-- Controller `c` performs one raw micro-op, which reaches the window only while `c` is open (R51, R92; log entry 14). -/
  | uop (c : Nat) (w : BitVec 43)
  /-- Another bus master presents a bus request (D36; log entry 13). -/
  | bus (w : BitVec 43)
  /-- Another bus master presents an access by byte offset and width (R53, R54; log entry 13). -/
  | foreign (a : ForeignAccess)
  /-- The block is reset from outside (R230; log entry 18). -/
  | reset
  deriving DecidableEq, Repr

/-- The state of the block, with the host's and the environment's part as plain data. -/
structure State where
  /-- the register-file state (R20) -/
  rf : RegFile
  /-- the controller instances, NUM_CTRL of them (R6, R213) -/
  ctrls : List Ctrl
  /-- the model's refusal mark (R41) -/
  refused : Bool
  /-- the parameter PIN_CHECK, which no step changes (R8, R42; log entry 3) -/
  pinCheck : PinCheck
  /-- the controller that acts now (log entry 2) -/
  cur : Nat
  /-- the datum last answered on the bus, RDATA (R90; log entry 10) -/
  rdata : Word
  /-- how many draws were taken (R14; log entry 5) -/
  draws : Nat
  /-- the outcomes the environment gives the next OPENs (R142; log entry 7) -/
  opens : List OpenOutcome
  /-- the pad levels the environment imposes at the next LEV reads (R30; log entry 6) -/
  levels : List (BitVec 64)
  /-- who moves next (log entry 2) -/
  sched : List Turn
  deriving DecidableEq, Repr

/-- The faults: places where the spec has no step. Each is safe: the model stops where the hardware, if it could get
there at all, would go on. -/
inductive Fault
  /-- A turn or an instruction of a controller `C[c]` with c not below NUM_CTRL (R213). Raised by every meaning that
  acts on the controller. Safe. -/
  | noSuchController
  /-- A command word is given to a controller with a command in flight: the issue step is enabled only when idle
  (R140, R216). Raised by the meanings of the six commands. Safe. -/
  | commandPortBusy
  /-- The micro-op counter is beyond the end of its program, which R38 rules out. Raised by the micro-op step. Safe. -/
  | noMicroOp
  /-- A foreign access lies outside the 4096 bytes of the window (R50, R55). Raised by the fetch. Safe. -/
  | outsideWindow
  deriving DecidableEq, Repr

/-- The refusals: the spec's own `refuse(reason)` (R14), each carrying the state it leaves, whose `refused` mark is set
(R41). Each is safe: the spec gives the access no meaning, and the model stops. -/
inductive Refusal
  /-- An arm of exec that has no meaning yet. Raised by exec alone. Safe. -/
  | notModelled (mnemonic : String)
  /-- A write of the word 0 to SET or CLR (R105, R107). Raised by WR_SET, WR_CLR and the WRITE_REG that reaches them. Safe. -/
  | zeroSetClearWrite (marked : State)
  /-- A write with a 1 in a reserved bit of SET1, CLR1 or PUDCLK1 (R105, R107, R114). Raised by WR_SET1, WR_CLR1,
  WR_PUDCLK1 and the WRITE_REG that reaches them. Safe. -/
  | reservedBitWrite (marked : State)
  /-- A read of SET, CLR or PUDCLK (R106, R108, R113). Raised by RD_SET, RD_CLR, RD_PUDCLK and the READ_REG that
  reaches them. Safe. -/
  | readOfWriteOnly (marked : State)
  /-- A write of LEV (R110). Raised by WR_LEV and the WRITE_REG that reaches it. Safe. -/
  | writeToReadOnly (marked : State)
  /-- An access to a word the source does not list (R119). Raised by RD_UNLISTED, WR_UNLISTED and the raw accesses that
  reach them. Safe. -/
  | unlistedRegister (marked : State)
  /-- A foreign access of a width other than 32 bits (R53). Raised by the fetch. Safe. -/
  | subWordAccess (marked : State)
  /-- A foreign access at an offset that is no multiple of 4 (R54). Raised by the fetch. Safe. -/
  | misaligned (marked : State)
  /-- A raw micro-op word that decodes to no micro-op (log entry 15). Raised by the fetch. Safe. -/
  | badMicroOp (marked : State)
  /-- A step of a state whose `refused` mark is set: such a state is never final and goes nowhere (R14, R41). Raised by
  the fetch. Safe. -/
  | alreadyRefused (marked : State)
  deriving DecidableEq, Repr

/-- The register file right after a reset whose draws have the number `n` (R44, R230): the sequencer idle, and a draw for
every function-select field, latch and pull state (log entry 9). -/
def RegFile.reset (n : Nat) : RegFile where
  fsel := pinTable fun p => Config.resetFsel n p.val
  latch := pinTable fun p => Config.resetLatch n p.val
  pud := 0
  clk := pinTable fun _ => false
  pull := pinTable fun p => Config.resetPull n p.val

/-- Controller `c` right after a reset whose draws have the number `n` (R44): closed and idle, with `pending` the words its
host still has to give. -/
def Ctrl.reset (n c : Nat) (pending : List (BitVec 64)) : Ctrl where
  isOpen := false
  cmd := none
  step := 0
  t := Config.freeTemp n c
  rsp := none
  pending := pending

/-- The block right after reset with the given parameters (R42, R44). -/
def State.resetWith (pinCheck : PinCheck) (numCtrl : Nat) : State where
  rf := RegFile.reset 0
  ctrls := (List.range numCtrl).map fun c => Ctrl.reset 0 c []
  refused := false
  pinCheck := pinCheck
  cur := 0
  rdata := 0
  draws := 1
  opens := []
  levels := []
  sched := []

/-- The block right after reset, with the spec's default parameters (R6, R44). -/
def State.reset : State := State.resetWith Config.pinCheck Config.numCtrl

end Sys2Proof.Machine
end

