-- ==== Sys2Proof/Machine/Flags.lean ====
section
/-! DEFINITION. The block has no flags and no condition codes (R40): the outcome of a command is its response word alone.
Here are the status codes (R200) and the response word (R89). -/

namespace Sys2Proof.Machine

/-- The status of a command (R200). -/
inductive Status
  | ok
  | errOpen
  | errMap
  | errBounds
  | errInvalidPin
  | errNotOpen
  | errIllegalCmd
  | errAlreadyOpen
  deriving DecidableEq, Repr

/-- The code of a status (R200). -/
def statusCode (st : Status) : BitVec 8 :=
  match st with
  | .ok => 0
  | .errOpen => 1
  | .errMap => 2
  | .errBounds => 3
  | .errInvalidPin => 4
  | .errNotOpen => 5
  | .errIllegalCmd => 6
  | .errAlreadyOpen => 7

/-- The response word (R89): STATUS in bits 7:0, LEVEL in bit 8, zero above. -/
def rspWord (st : Status) (level : Bool) : Word :=
  0#23 ++ BitVec.ofBool level ++ statusCode st

/-- The error an OPEN ends with for each outcome of the environment (R142). -/
def openError (o : OpenOutcome) : Option Status :=
  match o with
  | .ok => none
  | .openFail => some .errOpen
  | .mapFail => some .errMap

end Sys2Proof.Machine
end

