-- ==== Sys2Proof/Machine/Operands.lean ====
section
/-! DEFINITION. Operand forms: the pin-index helpers of R13, the codes written into registers (R21, R22), the bit and
byte views of a register word (R10, R52). -/

namespace Sys2Proof.Machine

/-- `bank(p)` (R13). -/
def bank (p : Nat) : Nat := p / 32

/-- `bit(p)` (R13). -/
def bitOf (p : Nat) : Nat := p % 32

/-- `fsel_index(p)` (R13). -/
def fselIndex (p : Nat) : Nat := 0 + p / 10

/-- `fsel_shift(p)` (R13). -/
def fselShift (p : Nat) : Nat := p % 10 * 3

/-- `set_index(p)` (R13). -/
def setIndex (p : Nat) : Nat := 7 + bank p

/-- `clr_index(p)` (R13). -/
def clrIndex (p : Nat) : Nat := 10 + bank p

/-- `lev_index(p)` (R13). -/
def levIndex (p : Nat) : Nat := 13 + bank p

/-- `pudclk_index(p)` (R13). -/
def pudclkIndex (p : Nat) : Nat := 38 + bank p

/-- `PUD_INDEX` (R13). -/
def pudIndex : Nat := 37

/-- `onehot(p)` (R13): the word whose only 1 bit is `bit(p)`. -/
def onehot (p : Nat) : Word := 1#32 <<< bitOf p

/-- The word whose bit `i` is `f i` (R10), `n` bits wide. -/
def ofBits : (n : Nat) → (Nat → Bool) → BitVec n
  | 0, _ => 0#0
  | n + 1, f => BitVec.cons (f n) (ofBits n f)

/-- Bits 3k+2 to 3k of a function-select word (R26). -/
def fselField (v : Word) (k : Nat) : BitVec 3 := v.extractLsb' (3 * k) 3

/-- Bits 1 to 0 of a word (R31, the source's "low 2 bits"). -/
def low2 (v : Word) : BitVec 2 := v.extractLsb' 0 2

/-- The reserved bits 31 to 22 of a bank-1 register (R28, R29, R32). -/
def reservedBank1 (v : Word) : BitVec 10 := v.extractLsb' 22 10

/-- The word with its low 2 bits clear: `v & 0xFFFF_FFFC` (R165). -/
def clearLow2 (v : Word) : Word := v &&& 0xFFFFFFFC#32

/-- A PullMode's code as a word: `zext_32(mode)` (R22, R165). -/
def pullWord (m : PullMode) : Word :=
  match m with
  | .off => 0#32
  | .down => 1#32
  | .up => 2#32

/-- The pull state a PullMode sets (R24: "the first three are the PullMode values"). -/
def pullStateOf (m : PullMode) : PullState :=
  match m with
  | .off => .off
  | .down => .down
  | .up => .up

/-- The 3-bit direction code (R21, R84). -/
def dirCode (d : PinDirection) : BitVec 3 :=
  match d with
  | .input => 0#3
  | .output => 1#3

/-- The latch value of a level (R23): High is 1, Low is 0. -/
def levelBool (l : PinLevel) : Bool :=
  match l with
  | .low => false
  | .high => true

/-- The 3-bit direction code as a word: `zext_32(code)` (R21, R84, R180). -/
def dirWord (d : PinDirection) : Word :=
  match d with
  | .input => 0#32
  | .output => 1#32

/-- The word SETUP writes back (R180, step 8): the field at `shift` of `t` replaced by the direction code. -/
def replaceField (t : Word) (shift : Nat) (d : PinDirection) : Word :=
  (t &&& ~~~(7#32 <<< shift)) ||| (dirWord d <<< shift)

/-- Byte `k` of a register word, the byte at offset `4*i + k` of the window (R52, little-endian). -/
def wordByte (v : Word) (k : Nat) : BitVec 8 := v.extractLsb' (8 * k) 8

/-- A register word from its four bytes, the lowest offset first (R52). -/
def wordOfBytes (b0 b1 b2 b3 : BitVec 8) : Word := b3 ++ b2 ++ b1 ++ b0

end Sys2Proof.Machine
end

