-- ==== Sys2Proof/Machine/Ops.lean ====
section
/-! DEFINITION. The named operations: on the register file (40_register_file.md, 42_pull_sequencer.md section 1), on the
bus (R91, R100, R101), on the acting controller, and the end of a command with a status (R140, R202), which stands where
other machines have exception entry: the block has no trap (R208, R209). -/

namespace Sys2Proof.Machine

/-- What a step or a meaning answers. -/
abbrev Result := Host.Outcome State Fault Refusal

/-- Go on from a next state; a fault or a refusal stays. -/
def andThen {α β : Type} (o : Host.Outcome α Fault Refusal) (f : α → Host.Outcome β Fault Refusal) :
    Host.Outcome β Fault Refusal :=
  match o with
  | .next a => f a
  | .fault r => .fault r
  | .refused r => .refused r

/-! ## Refusal -/

/-- Set the refusal mark (R14, R41). -/
def State.markRefused (s : State) : State := { s with refused := true }

/-- `refuse(reason)` (R14): the model stops, in the state with the mark set. -/
def refuse {α : Type} (reason : State → Refusal) (s : State) : Host.Outcome α Fault Refusal :=
  .refused (reason s.markRefused)

/-! ## The register file -/

/-- `clkbank(n)` (R32). -/
def clkbank (rf : RegFile) (n : Nat) : Word :=
  ofBits 32 fun b => if h : 32 * n + b < 54 then rf.clk[32 * n + b] else false

/-- The level register word `n` (R30, R109): an output pin reads its latch, every other bit the external level. -/
def levelWord (rf : RegFile) (n : Nat) (ext : BitVec 64) : Word :=
  ofBits 32 fun b =>
    if h : 32 * n + b < 54 then
      if rf.fsel[32 * n + b] = 1#3 then rf.latch[32 * n + b] else ext.getLsbD (32 * n + b)
    else ext.getLsbD (32 * n + b)

/-- The function-select register view (R26, R102): `free` supplies the reserved bits. -/
def fselWord (rf : RegFile) (r : Nat) (free : Word) : Word :=
  ofBits 32 fun b =>
    if h : b < 30 ∧ 10 * r + b / 3 < 54 then (rf.fsel[10 * r + b / 3]'h.2).getLsbD (b % 3) else free.getLsbD b

/-- The pull-control register view (R31, R111): `free` supplies bits 31:2. -/
def pudWord (rf : RegFile) (free : Word) : Word :=
  free.extractLsb' 2 30 ++ rf.pud

/-- A write of FSELr (R103). -/
def RegFile.writeFsel (rf : RegFile) (r : Nat) (v : Word) : RegFile :=
  { rf with fsel := pinTable fun p => if p.val / 10 = r then fselField v (p.val % 10) else rf.fsel[p] }

/-- The effect of a write of SETn or CLRn on the latches (R105, R107): each 1 bit gives its latch the value `b`. -/
def RegFile.writeLatches (rf : RegFile) (n : Nat) (v : Word) (b : Bool) : RegFile :=
  { rf with latch := pinTable fun p => if p.val / 32 = n ∧ v.getLsbD (p.val % 32) then b else rf.latch[p] }

/-- Strobe capture (R161): what the pull state of a strobed pin becomes, from the bank's clocks before the write and the
staged code. -/
def strobe (old : Word) (pud : BitVec 2) : PullState :=
  if old = 0 then
    if pud = 0 then .off else if pud = 1 then .down else if pud = 2 then .up else .indeterminate
  else .indeterminate

/-- A write of PUD (R112) with the effect of R162 on the pins whose clock is asserted. -/
def RegFile.writePud (rf : RegFile) (v : Word) : RegFile :=
  { rf with
    pud := low2 v
    pull := pinTable fun p => if low2 v ≠ 0 ∧ rf.clk[p] then .indeterminate else rf.pull[p] }

/-- A write of PUDCLKn (R114) with the capture of R161; a bit that falls changes no pull state (R163). -/
def RegFile.writePudclk (rf : RegFile) (n : Nat) (v : Word) : RegFile :=
  { rf with
    clk := pinTable fun p => if p.val / 32 = n then v.getLsbD (p.val % 32) else rf.clk[p]
    pull := pinTable fun p =>
      if p.val / 32 = n ∧ v.getLsbD (p.val % 32) then strobe (clkbank rf n) rf.pud else rf.pull[p] }

/-- The three directions a function-select code can give a pin (R25). -/
inductive PadFunction
  | input
  | output
  | other
  deriving DecidableEq, Repr

/-- The direction of a pin (R25). -/
def padFunction (rf : RegFile) (p : Pin) : PadFunction :=
  if rf.fsel[p] = 0#3 then .input else if rf.fsel[p] = 1#3 then .output else .other

/-- `pad_oe[p]` (R34). -/
def padOe (rf : RegFile) (p : Pin) : Bool := decide (rf.fsel[p] = 1#3)

/-- `pad_out[p]` (R34), meaningful when `padOe`. -/
def padOut (rf : RegFile) (p : Pin) : Bool := rf.latch[p]

/-- `pad_pull[p]` (R34). -/
def padPull (rf : RegFile) (p : Pin) : PullState := rf.pull[p]

/-! ## Draws -/

/-- One draw was taken (R14). -/
def State.draw (s : State) : State := { s with draws := s.draws + 1 }

/-- The pad levels of this LEV read (R30; log entry 6). -/
def State.nextLevels (s : State) : BitVec 64 := s.levels.headD (Config.padLevels s.draws)

/-- The pad levels of this LEV read were used. -/
def State.dropLevels (s : State) : State := { s with levels := s.levels.tail, draws := s.draws + 1 }

/-- The outcome of this OPEN (R142; log entry 7). -/
def State.nextOpen (s : State) : OpenOutcome := s.opens.headD (Config.openOutcome s.draws)

/-- The outcome of this OPEN was used. -/
def State.dropOpen (s : State) : State := { s with opens := s.opens.tail, draws := s.draws + 1 }

/-! ## Bus transactions -/

/-- Answer a read with a datum (R90). -/
def State.answer (s : State) (v : Word) : State := { s with rdata := v }

/-- Replace the register-file state. -/
def State.withRf (s : State) (rf : RegFile) : State := { s with rf := rf }

/-- RD FSELr (R102). -/
def readFsel (r : Nat) (s : State) : State :=
  (s.answer (fselWord s.rf r (Config.freeFsel s.draws))).draw

/-- WR FSELr (R103). -/
def writeFsel (r : Nat) (v : Word) (s : State) : State := s.withRf (s.rf.writeFsel r v)

/-- The checks WR SETn and WR CLRn share, and the write (R105, R107). -/
def writeLatches (n : Nat) (v : Word) (b : Bool) (s : State) : Result :=
  if v = 0 then refuse .zeroSetClearWrite s
  else if n = 1 ∧ reservedBank1 v ≠ 0 then refuse .reservedBitWrite s
  else .next (s.withRf (s.rf.writeLatches n v b))

/-- WR SETn (R105). -/
def writeSet (n : Nat) (v : Word) (s : State) : Result := writeLatches n v true s

/-- WR CLRn (R107). -/
def writeClr (n : Nat) (v : Word) (s : State) : Result := writeLatches n v false s

/-- RD LEVn (R109). -/
def readLev (n : Nat) (s : State) : State :=
  (s.answer (levelWord s.rf n s.nextLevels)).dropLevels

/-- RD PUD (R111). -/
def readPud (s : State) : State :=
  (s.answer (pudWord s.rf (Config.freePud s.draws))).draw

/-- WR PUD (R112). -/
def writePud (v : Word) (s : State) : State := s.withRf (s.rf.writePud v)

/-- WR PUDCLKn (R114). -/
def writePudclk (n : Nat) (v : Word) (s : State) : Result :=
  if n = 1 ∧ reservedBank1 v ≠ 0 then refuse .reservedBitWrite s
  else .next (s.withRf (s.rf.writePudclk n v))

/-- `BusRead(i)` (R12, R91, R101): the datum is in `rdata` of the next state. -/
def busRead (i : Nat) (s : State) : Result :=
  if i ≤ 5 then .next (readFsel i s)
  else if i = 7 ∨ i = 8 then refuse .readOfWriteOnly s
  else if i = 10 ∨ i = 11 then refuse .readOfWriteOnly s
  else if i = 13 ∨ i = 14 then .next (readLev (i - 13) s)
  else if i = 37 then .next (readPud s)
  else if i = 38 ∨ i = 39 then refuse .readOfWriteOnly s
  else refuse .unlistedRegister s

/-- `BusWrite(i, v)` (R12, R91, R101). -/
def busWrite (i : Nat) (v : Word) (s : State) : Result :=
  if i ≤ 5 then .next (writeFsel i v s)
  else if i = 7 ∨ i = 8 then writeSet (i - 7) v s
  else if i = 10 ∨ i = 11 then writeClr (i - 10) v s
  else if i = 13 ∨ i = 14 then refuse .writeToReadOnly s
  else if i = 37 then .next (writePud v s)
  else if i = 38 ∨ i = 39 then writePudclk (i - 38) v s
  else refuse .unlistedRegister s

/-! ## The acting controller -/

/-- The acting controller, if there is one. -/
def State.actor? (s : State) : Option Ctrl := s.ctrls[s.cur]?

/-- Change the acting controller. -/
def State.modifyActor (s : State) (f : Ctrl → Ctrl) : State := { s with ctrls := s.ctrls.modify s.cur f }

/-- Do what depends on the acting controller; there is no such controller: a fault. -/
def withActor {α : Type} (s : State) (f : Ctrl → Host.Outcome α Fault Refusal) : Host.Outcome α Fault Refusal :=
  match s.actor? with
  | none => .fault .noSuchController
  | some k => f k

/-- A controller with its temporary written (R39). -/
def Ctrl.setT (k : Ctrl) (v : Word) : Ctrl := { k with t := v }

/-- A controller holding a mapping or not (R142, R143). -/
def Ctrl.setOpen (k : Ctrl) (b : Bool) : Ctrl := { k with isOpen := b }

/-- A controller at its next micro-op (R38). -/
def Ctrl.advance (k : Ctrl) : Ctrl := { k with step := k.step + 1 }

/-- A controller that accepted a command (R140, issue step); the host took the last response (R216). -/
def Ctrl.accept (k : Ctrl) (c : Command) : Ctrl := { k with cmd := some c, step := 0, rsp := none }

/-- A controller whose command ended with a response (R140): idle, its temporary unspecified again (R39). -/
def Ctrl.finish (k : Ctrl) (rsp t : Word) : Ctrl := { k with cmd := none, step := 0, rsp := some rsp, t := t }

/-- A controller that answered an illegal word: nothing else changes (R205). -/
def Ctrl.reject (k : Ctrl) (rsp : Word) : Ctrl := { k with rsp := some rsp }

/-- End the acting controller's command with a status and a level (R12 `finish` and `raise`, R140, R202): the response is
delivered, the controller is idle, and nothing that was done is undone. -/
def endCommand (st : Status) (level : Bool) (s : State) : State :=
  (s.modifyActor fun k => k.finish (rspWord st level) (Config.freeTemp s.draws s.cur)).draw

/-! ## Raw register access -/

/-- What a micro-op answers: the state it leaves, and the error it raised, if any (R12). -/
abbrev MicroResult := Host.Outcome (State × Option Status) Fault Refusal

/-- The error that keeps a raw access of index `i` off the bus: a controller reaches the window only while it is open
(R51, R37), and only in bounds (R55). DESIGN CHOICE (log entry 14): the status of a closed controller is ERR_NOT_OPEN, before
the bounds check as in R204. -/
def rawError (k : Ctrl) (i : Nat) : Option Status :=
  if k.isOpen = false then some .errNotOpen
  else if 1024 ≤ i then some .errBounds
  else none

/-- READ_REG(i) (R146): the checks, then the bus, then `t`. -/
def readReg (i : Nat) (s : State) : MicroResult :=
  withActor s fun k =>
    match rawError k i with
    | some e => .next (s, some e)
    | none => andThen (busRead i s) fun s' => .next (s'.modifyActor (fun k => k.setT s'.rdata), none)

/-- WRITE_REG(i, v) (R147): the checks, then the bus. -/
def writeReg (i : Nat) (v : Word) (s : State) : MicroResult :=
  withActor s fun k =>
    match rawError k i with
    | some e => .next (s, some e)
    | none => andThen (busWrite i v s) fun s' => .next (s', none)

/-- A micro-op's answer as a state: a raised error ends the command (R202). -/
def settleError (o : MicroResult) : Result :=
  andThen o fun r =>
    .next (match r.2 with
      | none => r.1
      | some st => endCommand st false r.1)

/-! ## Reset -/

/-- Controllers after a reset, numbered from `c`; the words their hosts still have to give stay. -/
def resetCtrls (n : Nat) : Nat → List Ctrl → List Ctrl
  | _, [] => []
  | c, k :: ks => Ctrl.reset n c k.pending :: resetCtrls n (c + 1) ks

/-- A reset of the block from outside (R230, R44; log entry 18). -/
def resetBlock (s : State) : State :=
  { s with
    rf := RegFile.reset s.draws
    ctrls := resetCtrls s.draws 0 s.ctrls
    refused := false
    draws := s.draws + 1 }

end Sys2Proof.Machine
end

