-- ==== Sys2Proof/Machine/Sequencer.lean ====
section
/-! DEFINITION. The controller's sequencer: the micro-op programs (R149), the micro-op step and the issue step (R140), and
a command run to its end (R64). -/

namespace Sys2Proof.Machine

/-- One entry of a program: the entry check, the two window commands' own micro-op, or a raw access (R141-R143, R149). -/
inductive MicroOp
  | entry (pin : BitVec 32)
  | openWindow
  | closeWindow
  | read (i : Nat)
  | write (i : Nat) (v : Word)
  deriving DecidableEq, Repr

/-! ## Programs -/

/-- Steps 1 to 6 of the pull latch sequence (R165), `t` being the temporary at that step. -/
def pullOp (pin : BitVec 32) (mode : PullMode) (step : Nat) (t : Word) : Option MicroOp :=
  match step with
  | 1 => some (.read pudIndex)
  | 2 => some (.write pudIndex (clearLow2 t ||| pullWord mode))
  | 3 => some (.write (pudclkIndex pin.toNat) (onehot pin.toNat))
  | 4 => some (.read pudIndex)
  | 5 => some (.write pudIndex (clearLow2 t))
  | 6 => some (.write (pudclkIndex pin.toNat) 0)
  | _ => none

/-- The program of SET_PULL (R165). -/
def setPullOp (pin : BitVec 32) (mode : PullMode) (step : Nat) (t : Word) : Option MicroOp :=
  match step with
  | 0 => some (.entry pin)
  | n => pullOp pin mode n t

/-- The program of SETUP (R180). -/
def setupOp (pin : BitVec 32) (dir : PinDirection) (mode : PullMode) (step : Nat) (t : Word) : Option MicroOp :=
  match step with
  | 0 => some (.entry pin)
  | 7 => some (.read (fselIndex pin.toNat))
  | 8 => some (.write (fselIndex pin.toNat) (replaceField t (fselShift pin.toNat) dir))
  | n => pullOp pin mode n t

/-- The program of OUTPUT (R181). -/
def outputOp (pin : BitVec 32) (level : PinLevel) (step : Nat) : Option MicroOp :=
  match step with
  | 0 => some (.entry pin)
  | 1 =>
    match level with
    | .high => some (.write (setIndex pin.toNat) (onehot pin.toNat))
    | .low => some (.write (clrIndex pin.toNat) (onehot pin.toNat))
  | _ => none

/-- The program of INPUT (R182). -/
def inputOp (pin : BitVec 32) (step : Nat) : Option MicroOp :=
  match step with
  | 0 => some (.entry pin)
  | 1 => some (.read (levIndex pin.toNat))
  | _ => none

/-- The micro-op of a command at a step (R149). -/
def microOp (c : Command) (step : Nat) (t : Word) : Option MicroOp :=
  match c with
  | .openCmd => if step = 0 then some .openWindow else none
  | .closeCmd => if step = 0 then some .closeWindow else none
  | .setPull pin mode => setPullOp pin mode step t
  | .setup pin dir mode => setupOp pin dir mode step t
  | .output pin level => outputOp pin level step
  | .input pin => inputOp pin step

/-- How many micro-ops a command's program has (R239). -/
def programLength (c : Command) : Nat :=
  match c with
  | .openCmd => 1
  | .closeCmd => 1
  | .setPull _ _ => 7
  | .setup _ _ _ => 9
  | .output _ _ => 2
  | .input _ => 2

/-- The LEVEL bit of the response of a command that completed, from the temporary (R182); 0 for all but INPUT (R89). -/
def responseLevel (c : Command) (t : Word) : Bool :=
  match c with
  | .input pin => decide (t &&& onehot pin.toNat ≠ 0)
  | _ => false

/-! ## Micro-ops -/

/-- ENTRY (R141): the open check, then the pin check. -/
def entryError (pinCheck : PinCheck) (k : Ctrl) (pin : BitVec 32) : Option Status :=
  if k.isOpen = false then some .errNotOpen
  else if pinCheck = .checked ∧ 54 ≤ pin.toNat then some .errInvalidPin
  else none

/-- OPEN's micro-op (R142). -/
def openWindow (s : State) : MicroResult :=
  withActor s fun k =>
    if k.isOpen then .next (s, some .errAlreadyOpen)
    else .next (s.dropOpen.modifyActor (fun k => k.setOpen (decide (s.nextOpen = .ok))), openError s.nextOpen)

/-- CLOSE's micro-op (R143). -/
def closeWindow (s : State) : MicroResult :=
  withActor s fun k =>
    if k.isOpen then .next (s.modifyActor (fun k => k.setOpen false), none)
    else .next (s, some .errNotOpen)

/-- Perform one micro-op on the acting controller. -/
def performMicro (op : MicroOp) (s : State) : MicroResult :=
  match op with
  | .entry pin => withActor s fun k => .next (s, entryError s.pinCheck k pin)
  | .openWindow => openWindow s
  | .closeWindow => closeWindow s
  | .read i => readReg i s
  | .write i v => writeReg i v s

/-- The end of a micro-op step (R140): after an error or the program's last micro-op the command ends, else the counter
advances. -/
def concludeMicro (c : Command) (step : Nat) (error : Option Status) (s : State) : State :=
  if step + 1 = programLength c ∨ error.isSome then
    endCommand (error.getD .ok)
      (error.isNone && (match s.actor? with | none => false | some k => responseLevel c k.t)) s
  else s.modifyActor Ctrl.advance

/-- The micro-op step of the acting controller (R140), not enabled when it is idle. -/
def microStep (s : State) : Result :=
  withActor s fun k =>
    match k.cmd with
    | none => .next s
    | some c =>
      match microOp c k.step k.t with
      | none => .fault .noMicroOp
      | some op => andThen (performMicro op s) fun r => .next (concludeMicro c k.step r.2 r.1)

/-! ## Commands -/

/-- The issue step of a legal word (R140). -/
def acceptCommand (c : Command) (s : State) : Result :=
  withActor s fun k =>
    if k.cmd.isSome then .fault .commandPortBusy
    else .next (s.modifyActor fun k => k.accept c)

/-- The issue step of an illegal word (R140, R205). -/
def rejectCommand (s : State) : Result :=
  withActor s fun k =>
    if k.cmd.isSome then .fault .commandPortBusy
    else .next (s.modifyActor fun k => k.reject (rspWord .errIllegalCmd false))

/-- Micro-op steps of the acting controller until it is idle, at most `fuel` of them. -/
def runToEnd : Nat → State → Result
  | 0, s => .next s
  | fuel + 1, s =>
    withActor s fun k =>
      match k.cmd with
      | none => .next s
      | some _ => andThen (microStep s) (runToEnd fuel)

/-- A command given to the acting controller and run undisturbed to its end (R64): the issue step and then every micro-op
step, of which no program has more than 9 (R38). -/
def runCommand (c : Command) (s : State) : Result :=
  andThen (acceptCommand c s) (runToEnd 9)

end Sys2Proof.Machine
end

