-- ==== Sys2Proof/Machine/Mapping.lean ====
section
/-! DEFINITION. The meanings of OPEN and CLOSE and of the raw accesses (41_mapping_and_raw_access.md). -/

namespace Sys2Proof.Machine

/-- OPEN (R142). -/
def execOpenCmd (s : State) : Result := runCommand .openCmd s

/-- CLOSE (R143). -/
def execCloseCmd (s : State) : Result := runCommand .closeCmd s

/-- READ_REG(i) (R146), performed by the acting controller, which reaches the window only while it is open (R51); a raised
error ends its command (R202; log entry 14). -/
def execReadReg (i : Nat) (s : State) : Result := settleError (readReg i s)

/-- WRITE_REG(i, v) (R147), performed by the acting controller, which reaches the window only while it is open (R51); a
raised error ends its command (R202; log entry 14). -/
def execWriteReg (i : Nat) (v : Word) (s : State) : Result := settleError (writeReg i v s)

end Sys2Proof.Machine
end

