-- ==== Sys2Proof/Machine/PinCommands.lean ====
section
/-! DEFINITION. The meanings of the pin commands: SET_PULL (42_pull_sequencer.md), SETUP, OUTPUT and INPUT
(43_pin_operations.md). -/

namespace Sys2Proof.Machine

/-- SET_PULL (R165). -/
def execSetPull (pin : BitVec 32) (mode : PullMode) (s : State) : Result := runCommand (.setPull pin mode) s

/-- SETUP (R180). -/
def execSetup (pin : BitVec 32) (dir : PinDirection) (mode : PullMode) (s : State) : Result :=
  runCommand (.setup pin dir mode) s

/-- OUTPUT (R181). -/
def execOutput (pin : BitVec 32) (level : PinLevel) (s : State) : Result := runCommand (.output pin level) s

/-- INPUT (R182). -/
def execInput (pin : BitVec 32) (s : State) : Result := runCommand (.input pin) s

end Sys2Proof.Machine
end

