-- ==== Sys2Proof/Machine/RegisterFile.lean ====
section
/-! DEFINITION. The meanings of the 32 bus transactions (40_register_file.md). The datum of a read is in `rdata` (R90). -/

namespace Sys2Proof.Machine

/-- RD_FSEL0 (R102). -/
def execRdFsel0 (s : State) : Result := .next (readFsel 0 s)

/-- WR_FSEL0 (R103). -/
def execWrFsel0 (v : Word) (s : State) : Result := .next (writeFsel 0 v s)

/-- RD_FSEL1 (R102). -/
def execRdFsel1 (s : State) : Result := .next (readFsel 1 s)

/-- WR_FSEL1 (R103). -/
def execWrFsel1 (v : Word) (s : State) : Result := .next (writeFsel 1 v s)

/-- RD_FSEL2 (R102). -/
def execRdFsel2 (s : State) : Result := .next (readFsel 2 s)

/-- WR_FSEL2 (R103). -/
def execWrFsel2 (v : Word) (s : State) : Result := .next (writeFsel 2 v s)

/-- RD_FSEL3 (R102). -/
def execRdFsel3 (s : State) : Result := .next (readFsel 3 s)

/-- WR_FSEL3 (R103). -/
def execWrFsel3 (v : Word) (s : State) : Result := .next (writeFsel 3 v s)

/-- RD_FSEL4 (R102). -/
def execRdFsel4 (s : State) : Result := .next (readFsel 4 s)

/-- WR_FSEL4 (R103). -/
def execWrFsel4 (v : Word) (s : State) : Result := .next (writeFsel 4 v s)

/-- RD_FSEL5 (R102). -/
def execRdFsel5 (s : State) : Result := .next (readFsel 5 s)

/-- WR_FSEL5 (R103). -/
def execWrFsel5 (v : Word) (s : State) : Result := .next (writeFsel 5 v s)

/-- RD_SET0 (R106). -/
def execRdSet0 (s : State) : Result := refuse .readOfWriteOnly s

/-- WR_SET0 (R105). -/
def execWrSet0 (v : Word) (s : State) : Result := writeSet 0 v s

/-- RD_SET1 (R106). -/
def execRdSet1 (s : State) : Result := refuse .readOfWriteOnly s

/-- WR_SET1 (R105). -/
def execWrSet1 (v : Word) (s : State) : Result := writeSet 1 v s

/-- RD_CLR0 (R108). -/
def execRdClr0 (s : State) : Result := refuse .readOfWriteOnly s

/-- WR_CLR0 (R107). -/
def execWrClr0 (v : Word) (s : State) : Result := writeClr 0 v s

/-- RD_CLR1 (R108). -/
def execRdClr1 (s : State) : Result := refuse .readOfWriteOnly s

/-- WR_CLR1 (R107). -/
def execWrClr1 (v : Word) (s : State) : Result := writeClr 1 v s

/-- RD_LEV0 (R109). -/
def execRdLev0 (s : State) : Result := .next (readLev 0 s)

/-- WR_LEV0 (R110). -/
def execWrLev0 (_v : Word) (s : State) : Result := refuse .writeToReadOnly s

/-- RD_LEV1 (R109). -/
def execRdLev1 (s : State) : Result := .next (readLev 1 s)

/-- WR_LEV1 (R110). -/
def execWrLev1 (_v : Word) (s : State) : Result := refuse .writeToReadOnly s

/-- RD_PUD (R111). -/
def execRdPud (s : State) : Result := .next (readPud s)

/-- WR_PUD (R112). -/
def execWrPud (v : Word) (s : State) : Result := .next (writePud v s)

/-- RD_PUDCLK0 (R113). -/
def execRdPudclk0 (s : State) : Result := refuse .readOfWriteOnly s

/-- WR_PUDCLK0 (R114). -/
def execWrPudclk0 (v : Word) (s : State) : Result := writePudclk 0 v s

/-- RD_PUDCLK1 (R113). -/
def execRdPudclk1 (s : State) : Result := refuse .readOfWriteOnly s

/-- WR_PUDCLK1 (R114). -/
def execWrPudclk1 (v : Word) (s : State) : Result := writePudclk 1 v s

/-- RD_UNLISTED (R119). -/
def execRdUnlisted (_i : BitVec 10) (s : State) : Result := refuse .unlistedRegister s

/-- WR_UNLISTED (R119). -/
def execWrUnlisted (_i : BitVec 10) (_v : Word) (s : State) : Result := refuse .unlistedRegister s

end Sys2Proof.Machine
end

