-- ==== Sys2Proof/Machine/Dispatch.lean ====
section
/-! DEFINITION. One arm for each instruction. -/

namespace Sys2Proof.Machine

def exec (i : Instr) (s : State) : Host.Outcome State Fault Refusal :=
  match i with
  | .openCmd => Sys2Proof.Machine.execOpenCmd s
  | .closeCmd => Sys2Proof.Machine.execCloseCmd s
  | .setPull pin mode => Sys2Proof.Machine.execSetPull pin mode s
  | .setup pin dir mode => Sys2Proof.Machine.execSetup pin dir mode s
  | .output pin level => Sys2Proof.Machine.execOutput pin level s
  | .input pin => Sys2Proof.Machine.execInput pin s
  | .readReg n => Sys2Proof.Machine.execReadReg n s
  | .writeReg n v => Sys2Proof.Machine.execWriteReg n v s
  | .rdFsel0 => Sys2Proof.Machine.execRdFsel0 s
  | .wrFsel0 v => Sys2Proof.Machine.execWrFsel0 v s
  | .rdFsel1 => Sys2Proof.Machine.execRdFsel1 s
  | .wrFsel1 v => Sys2Proof.Machine.execWrFsel1 v s
  | .rdFsel2 => Sys2Proof.Machine.execRdFsel2 s
  | .wrFsel2 v => Sys2Proof.Machine.execWrFsel2 v s
  | .rdFsel3 => Sys2Proof.Machine.execRdFsel3 s
  | .wrFsel3 v => Sys2Proof.Machine.execWrFsel3 v s
  | .rdFsel4 => Sys2Proof.Machine.execRdFsel4 s
  | .wrFsel4 v => Sys2Proof.Machine.execWrFsel4 v s
  | .rdFsel5 => Sys2Proof.Machine.execRdFsel5 s
  | .wrFsel5 v => Sys2Proof.Machine.execWrFsel5 v s
  | .rdSet0 => Sys2Proof.Machine.execRdSet0 s
  | .wrSet0 v => Sys2Proof.Machine.execWrSet0 v s
  | .rdSet1 => Sys2Proof.Machine.execRdSet1 s
  | .wrSet1 v => Sys2Proof.Machine.execWrSet1 v s
  | .rdClr0 => Sys2Proof.Machine.execRdClr0 s
  | .wrClr0 v => Sys2Proof.Machine.execWrClr0 v s
  | .rdClr1 => Sys2Proof.Machine.execRdClr1 s
  | .wrClr1 v => Sys2Proof.Machine.execWrClr1 v s
  | .rdLev0 => Sys2Proof.Machine.execRdLev0 s
  | .wrLev0 v => Sys2Proof.Machine.execWrLev0 v s
  | .rdLev1 => Sys2Proof.Machine.execRdLev1 s
  | .wrLev1 v => Sys2Proof.Machine.execWrLev1 v s
  | .rdPud => Sys2Proof.Machine.execRdPud s
  | .wrPud v => Sys2Proof.Machine.execWrPud v s
  | .rdPudclk0 => Sys2Proof.Machine.execRdPudclk0 s
  | .wrPudclk0 v => Sys2Proof.Machine.execWrPudclk0 v s
  | .rdPudclk1 => Sys2Proof.Machine.execRdPudclk1 s
  | .wrPudclk1 v => Sys2Proof.Machine.execWrPudclk1 v s
  | .rdUnlisted n => Sys2Proof.Machine.execRdUnlisted n s
  | .wrUnlisted n v => Sys2Proof.Machine.execWrUnlisted n v s

end Sys2Proof.Machine
end

