-- ==== Sys2Proof/WellFormed.lean ====
section
/-! DEFINITION. Which instructions have an encoding: the index of a raw access fits the bus's ten bits (R90, R92), and
the index of an unlisted row is not one of the listed words (R35, R91). Pull code 3 (R83) cannot be written as a
`PullMode`, so it needs no check. -/

namespace Sys2Proof

/-- The words the register map lists (R35, R36). -/
def listedWord (i : Nat) : Bool :=
  i ≤ 5 || i == 7 || i == 8 || i == 10 || i == 11 || i == 13 || i == 14 || i == 37 || i == 38 || i == 39

/-- The instructions that have an encoding. -/
def WellFormed : Instr → Bool
  | .readReg i => decide (i < 1024)
  | .writeReg i _ => decide (i < 1024)
  | .rdUnlisted i => !listedWord i.toNat
  | .wrUnlisted i _ => !listedWord i.toNat
  | _ => true

end Sys2Proof
end

