-- ==== Sys2Proof/Decode.lean ====
section
/-! DEFINITION. The words on the ports, the decoder of each (R88, R90-R92), total on every word and rejecting by name,
and after it the encoder. The ports carry whole words, not bytes (R80); no command lives in an addressed memory (R50). -/

namespace Sys2Proof

/-- A word as it arrives: a command word on a command port, a micro-op in the form of the bus request it issues, or a
bus request at the register file (R80). The port fixes the length. -/
inductive PortWord
  | cmd (w : BitVec 64)
  | uop (w : BitVec 43)
  | bus (w : BitVec 43)
  deriving DecidableEq, Repr

/-- Why a word decodes to no instruction. -/
inductive DecodeError
  /-- RSV bits 55:32 are not zero (R86, R88). -/
  | reservedBits
  /-- A field the operation does not use is not zero (R81, R88). -/
  | unusedField
  /-- SET_PULL or SETUP with PULL = 3 (R83, R88). -/
  | pullCode3
  /-- OP is 0 or 7 to 15 (R87, R88). -/
  | badOp
  /-- A READ_REG whose WDATA bits are not zero (R90; opcode table, row READ_REG). -/
  | readWithData
  deriving DecidableEq, Repr

/-- The 2-bit code of a PullMode (R22). -/
def pullCode : PullMode → BitVec 2
  | .off => 0
  | .down => 1
  | .up => 2

/-- The PullMode of a 2-bit code; code 3 is none (R22, R83). -/
def pullModeOf (c : BitVec 2) : Option PullMode :=
  if c = 0 then some .off else if c = 1 then some .down else if c = 2 then some .up else none

/-- The DIR bit (R84): 0 Input, 1 Output. -/
def dirBit : PinDirection → BitVec 1
  | .input => 0
  | .output => 1

/-- The PinDirection of a DIR bit (R84). -/
def dirOf (b : BitVec 1) : PinDirection :=
  if b = 0 then .input else .output

/-- The LVL bit (R85): 0 Low, 1 High. -/
def levelBit : PinLevel → BitVec 1
  | .low => 0
  | .high => 1

/-- The PinLevel of a LVL bit (R85). -/
def levelOf (b : BitVec 1) : PinLevel :=
  if b = 0 then .low else .high

/-- The decoder of the command port (R88). -/
def decodeCmd (w : BitVec 64) : Except DecodeError Instr :=
  let op := (w.extractLsb' 60 4).toNat
  let mode := w.extractLsb' 58 2
  let dir := w.extractLsb' 57 1
  let lvl := w.extractLsb' 56 1
  let rsv := w.extractLsb' 32 24
  let pin := w.extractLsb' 0 32
  if rsv ≠ 0 then .error .reservedBits
  else if op = 1 then
    if mode = 0 ∧ dir = 0 ∧ lvl = 0 ∧ pin = 0 then .ok .openCmd else .error .unusedField
  else if op = 2 then
    if mode = 0 ∧ dir = 0 ∧ lvl = 0 ∧ pin = 0 then .ok .closeCmd else .error .unusedField
  else if op = 3 then
    match pullModeOf mode with
    | none => .error .pullCode3
    | some m => if dir = 0 ∧ lvl = 0 then .ok (.setPull pin m) else .error .unusedField
  else if op = 4 then
    match pullModeOf mode with
    | none => .error .pullCode3
    | some m => if lvl = 0 then .ok (.setup pin (dirOf dir) m) else .error .unusedField
  else if op = 5 then
    if mode = 0 ∧ dir = 0 then .ok (.output pin (levelOf lvl)) else .error .unusedField
  else if op = 6 then
    if mode = 0 ∧ dir = 0 ∧ lvl = 0 then .ok (.input pin) else .error .unusedField
  else .error .badOp

/-- The instruction a bus request stands for, by its write enable, word index and write data. Every key has a row
(R91, R101); a read ignores the data lines (log entry 15). -/
def busInstr (we : Bool) (i : BitVec 10) (v : Word) : Instr :=
  match we, i.toNat with
  | false, 0 => .rdFsel0
  | true, 0 => .wrFsel0 v
  | false, 1 => .rdFsel1
  | true, 1 => .wrFsel1 v
  | false, 2 => .rdFsel2
  | true, 2 => .wrFsel2 v
  | false, 3 => .rdFsel3
  | true, 3 => .wrFsel3 v
  | false, 4 => .rdFsel4
  | true, 4 => .wrFsel4 v
  | false, 5 => .rdFsel5
  | true, 5 => .wrFsel5 v
  | false, 7 => .rdSet0
  | true, 7 => .wrSet0 v
  | false, 8 => .rdSet1
  | true, 8 => .wrSet1 v
  | false, 10 => .rdClr0
  | true, 10 => .wrClr0 v
  | false, 11 => .rdClr1
  | true, 11 => .wrClr1 v
  | false, 13 => .rdLev0
  | true, 13 => .wrLev0 v
  | false, 14 => .rdLev1
  | true, 14 => .wrLev1 v
  | false, 37 => .rdPud
  | true, 37 => .wrPud v
  | false, 38 => .rdPudclk0
  | true, 38 => .wrPudclk0 v
  | false, 39 => .rdPudclk1
  | true, 39 => .wrPudclk1 v
  | false, _ => .rdUnlisted i
  | true, _ => .wrUnlisted i v

/-- The decoder of a bus request (R90, R91): WE is bit 42, WIDX bits 41:32, WDATA bits 31:0. -/
def decodeBus (w : BitVec 43) : Instr :=
  busInstr (w.getLsbD 42) (w.extractLsb' 32 10) (w.extractLsb' 0 32)

/-- The decoder of a micro-op, shown as the bus request it issues (R92; opcode table, format UOP). -/
def decodeUop (w : BitVec 43) : Except DecodeError Instr :=
  let i := (w.extractLsb' 32 10).toNat
  let v := w.extractLsb' 0 32
  if w.getLsbD 42 then .ok (.writeReg i v)
  else if v = 0 then .ok (.readReg i)
  else .error .readWithData

/-- The decoder of every port. -/
def decode : PortWord → Except DecodeError Instr
  | .cmd w => decodeCmd w
  | .uop w => decodeUop w
  | .bus w => .ok (decodeBus w)

/-- The port and the word of an instruction given in the opcode table's own bit numbers, `nbits` bits of it: a command
word has 64 bits, a micro-op 43 (in whole bytes 48), and a bus row is given by its 11-bit KEY (in whole bytes 16), whose
data lines are then 0. A word too wide for its port is none. -/
def tablePortWord (nbits w : Nat) : Option PortWord :=
  if 64 ≤ nbits then (if w < 2 ^ 64 then some (.cmd (BitVec.ofNat 64 w)) else none)
  else if 43 ≤ nbits then (if w < 2 ^ 43 then some (.uop (BitVec.ofNat 43 w)) else none)
  else if w < 2 ^ 11 then some (.bus (BitVec.ofNat 43 (w * 2 ^ 32))) else none

/-- The instruction the decoder reads from a word of the opcode table. -/
def decodeTableWord (nbits w : Nat) : Option Instr :=
  match tablePortWord nbits w with
  | none => none
  | some p => (decode p).toOption

/-- A command word from its fields (R81). -/
def cmdWord (op : BitVec 4) (mode : BitVec 2) (dir lvl : BitVec 1) (pin : BitVec 32) : BitVec 64 :=
  op ++ mode ++ dir ++ lvl ++ 0#24 ++ pin

/-- A bus request from its fields (R90). -/
def busWord (we : BitVec 1) (i : BitVec 10) (v : Word) : BitVec 43 :=
  we ++ i ++ v

/-- The encoder (R81, R90, R92). A raw access whose index is not below 1024 has no encoding, and gives here the word of
its index modulo 1024; `WellFormed` rules it out. -/
def encode : Instr → PortWord
  | .openCmd => .cmd (cmdWord 1 0 0 0 0)
  | .closeCmd => .cmd (cmdWord 2 0 0 0 0)
  | .setPull pin mode => .cmd (cmdWord 3 (pullCode mode) 0 0 pin)
  | .setup pin dir mode => .cmd (cmdWord 4 (pullCode mode) (dirBit dir) 0 pin)
  | .output pin level => .cmd (cmdWord 5 0 0 (levelBit level) pin)
  | .input pin => .cmd (cmdWord 6 0 0 0 pin)
  | .readReg i => .uop (busWord 0 (BitVec.ofNat 10 i) 0)
  | .writeReg i v => .uop (busWord 1 (BitVec.ofNat 10 i) v)
  | .rdFsel0 => .bus (busWord 0 0 0)
  | .wrFsel0 v => .bus (busWord 1 0 v)
  | .rdFsel1 => .bus (busWord 0 1 0)
  | .wrFsel1 v => .bus (busWord 1 1 v)
  | .rdFsel2 => .bus (busWord 0 2 0)
  | .wrFsel2 v => .bus (busWord 1 2 v)
  | .rdFsel3 => .bus (busWord 0 3 0)
  | .wrFsel3 v => .bus (busWord 1 3 v)
  | .rdFsel4 => .bus (busWord 0 4 0)
  | .wrFsel4 v => .bus (busWord 1 4 v)
  | .rdFsel5 => .bus (busWord 0 5 0)
  | .wrFsel5 v => .bus (busWord 1 5 v)
  | .rdSet0 => .bus (busWord 0 7 0)
  | .wrSet0 v => .bus (busWord 1 7 v)
  | .rdSet1 => .bus (busWord 0 8 0)
  | .wrSet1 v => .bus (busWord 1 8 v)
  | .rdClr0 => .bus (busWord 0 10 0)
  | .wrClr0 v => .bus (busWord 1 10 v)
  | .rdClr1 => .bus (busWord 0 11 0)
  | .wrClr1 v => .bus (busWord 1 11 v)
  | .rdLev0 => .bus (busWord 0 13 0)
  | .wrLev0 v => .bus (busWord 1 13 v)
  | .rdLev1 => .bus (busWord 0 14 0)
  | .wrLev1 v => .bus (busWord 1 14 v)
  | .rdPud => .bus (busWord 0 37 0)
  | .wrPud v => .bus (busWord 1 37 v)
  | .rdPudclk0 => .bus (busWord 0 38 0)
  | .wrPudclk0 v => .bus (busWord 1 38 v)
  | .rdPudclk1 => .bus (busWord 0 39 0)
  | .wrPudclk1 v => .bus (busWord 1 39 v)
  | .rdUnlisted i => .bus (busWord 0 i 0)
  | .wrUnlisted i v => .bus (busWord 1 i v)

end Sys2Proof
end

