-- ==== Sys2Proof/Machine/Fetch.lean ====
section
/-! DEFINITION. Which agent moves and what it fetches: the schedule (R61, log entry 2), the command port (R140, R216), and
the traffic of another bus master (R53, R54, D36). -/

namespace Sys2Proof.Machine

/-- What a step has to do: run an instruction in a state, or give an answer already known. -/
inductive Fetched
  | run (i : Instr) (s : State)
  | done (o : Result)

/-- The command a decoded command word stands for (R37). -/
def commandOf (i : Instr) : Option Command :=
  match i with
  | .openCmd => some .openCmd
  | .closeCmd => some .closeCmd
  | .setPull pin mode => some (.setPull pin mode)
  | .setup pin dir mode => some (.setup pin dir mode)
  | .output pin level => some (.output pin level)
  | .input pin => some (.input pin)
  | _ => none

/-- The issue step for a fetched word (R140): a legal word is accepted, an illegal one answered with status 6. -/
def issueWord (w : BitVec 64) (s : State) : Result :=
  match decodeCmd w with
  | .error _ => rejectCommand s
  | .ok i =>
    match commandOf i with
    | none => rejectCommand s
    | some c => acceptCommand c s

/-- The acting controller with the words its host still has to give. -/
def State.withPending (s : State) (ws : List (BitVec 64)) : State :=
  s.modifyActor fun k => { k with pending := ws }

/-- One step of the acting controller (R140): a micro-op step when a command is in flight; else an issue step when its host
has a word; else nothing, the controller waits (R215). -/
def fetchCtrl (s : State) : Fetched :=
  match s.actor? with
  | none => .done (.fault .noSuchController)
  | some k =>
    match k.cmd with
    | some _ => .done (microStep s)
    | none =>
      match k.pending with
      | [] => .done (.next s)
      | w :: ws => .done (issueWord w (s.withPending ws))

/-- A whole command of the acting controller, undisturbed (R64): the rest of the one in flight, else the next word's. -/
def fetchRun (s : State) : Fetched :=
  match s.actor? with
  | none => .done (.fault .noSuchController)
  | some k =>
    match k.cmd with
    | some _ => .done (runToEnd 9 s)
    | none =>
      match k.pending with
      | [] => .done (.next s)
      | w :: ws =>
        match decodeCmd w with
        | .error _ => .done (rejectCommand (s.withPending ws))
        | .ok i => .run i (s.withPending ws)

/-- An access of another bus master (R53, R54, R55): an aligned 32-bit access in the window is a bus transaction. -/
def fetchForeign (a : ForeignAccess) (s : State) : Fetched :=
  if a.width ≠ 32 then .done (refuse .subWordAccess s)
  else if a.offset % 4 ≠ 0 then .done (refuse .misaligned s)
  else if 4096 ≤ a.offset then .done (.fault .outsideWindow)
  else .run (busInstr a.write (BitVec.ofNat 10 (a.offset / 4)) a.data) s

/-- What one turn of the schedule does. -/
def fetchTurn (t : Turn) (s : State) : Fetched :=
  match t with
  | .ctrl c => fetchCtrl { s with cur := c }
  | .run c => fetchRun { s with cur := c }
  | .uop c w =>
    match decodeUop w with
    | .error _ => .done (refuse .badMicroOp s)
    | .ok i => .run i { s with cur := c }
  | .bus w => .run (decodeBus w) s
  | .foreign a => fetchForeign a s
  | .reset => .done (.next (resetBlock s))

/-- Whether a controller can move: a command in flight, or a word of its host waiting. -/
def Ctrl.ready (k : Ctrl) : Bool := k.cmd.isSome || !k.pending.isEmpty

/-- The first controller, numbered from `c`, that can move. -/
def firstReady : Nat → List Ctrl → Option Nat
  | _, [] => none
  | c, k :: ks => if k.ready then some c else firstReady (c + 1) ks

/-- What the next step has to do: nothing from a refused state (R14, R41); the schedule's next turn; with an empty schedule
one step of the first controller that can move (log entry 2); and if none can, the block waits (R215). -/
def fetch (s : State) : Fetched :=
  if s.refused then .done (.refused (.alreadyRefused s))
  else
    match s.sched with
    | t :: rest => fetchTurn t { s with sched := rest }
    | [] =>
      match firstReady 0 s.ctrls with
      | none => .done (.next s)
      | some c => fetchTurn (.ctrl c) s

/-- The state with a port word as the very next thing a step fetches: a command word stands first on the port of C[0],
which is made idle, and the schedule's first turn runs it; any other word is the schedule's first turn. -/
def placeWord (s : State) (p : PortWord) : State :=
  match p with
  | .cmd w =>
    { s with
      ctrls := s.ctrls.modify 0 fun k => { k with cmd := none, step := 0, pending := w :: k.pending }
      sched := .run 0 :: s.sched }
  | .uop w => { s with sched := .uop 0 w :: s.sched }
  | .bus w => { s with sched := .bus w :: s.sched }

end Sys2Proof.Machine
end

