-- ==== Sys2Proof/Machine/Step.lean ====
section
/-! DEFINITION. One step of the machine, and the placing of an instruction where the next step fetches it. -/

namespace Sys2Proof.Machine

/-- One step (R140): what `fetch` finds is run by `exec`, or is the answer itself. -/
def step (s : State) : Host.Outcome State Fault Refusal :=
  match fetch s with
  | .run i s' => exec i s'
  | .done o => o

/-- `s` with an instruction of the opcode table, given in the table's own bit numbers, as the next one (log entry 17). A
word that fits no port changes nothing. -/
def State.withFetchWord (s : State) (nbits w : Nat) : State :=
  match tablePortWord nbits w with
  | none => s
  | some p => placeWord s p

end Sys2Proof.Machine
end

