-- ==== Sys2Proof/Safety.lean ====
section
/-! DEFINITION. What counts as a safe state, in the terms claims use: the launch premises of R45 and R46, the end of a run
(R240), and the invariants. -/

namespace Sys2Proof.Machine

/-- No pull clock of any pin is asserted. -/
def RegFile.NoStrobe (rf : RegFile) : Prop := ∀ p : Pin, rf.clk[p] = false

/-- Bank `n` is Idle (R160): no strobe asserted in it. -/
def RegFile.BankIdle (rf : RegFile) (n : Nat) : Prop := ∀ p : Pin, p.val / 32 = n → rf.clk[p] = false

/-- `SeqIdle` (R45): the pull sequencer is idle. -/
def RegFile.SeqIdle (rf : RegFile) : Prop := rf.pud = 0 ∧ rf.NoStrobe

/-- `CleanEntry(c)` (R46). -/
def State.CleanEntry (s : State) (c : Nat) : Prop :=
  s.refused = false ∧ (∃ k, s.ctrls[c]? = some k ∧ k.cmd = none) ∧ s.rf.SeqIdle

/-- The end of a run (R240): every controller idle, every host without a further word, and no refusal. -/
def State.Final (s : State) : Prop :=
  s.refused = false ∧ ∀ k ∈ s.ctrls, k.cmd = none ∧ k.pending = []

/-- The acting controller exists and is `k`, and it is idle: where an issue step is enabled (R140). -/
def State.IdleActor (s : State) (k : Ctrl) : Prop := s.actor? = some k ∧ k.cmd = none

/-- `n` steps, stopping at the first fault or refusal. -/
def steps : Nat → State → Result
  | 0, s => .next s
  | n + 1, s => andThen (step s) (steps n)

/-- What no meaning of an instruction changes: the refusal mark, the parameter, who acts, the schedule, and every
controller but the acting one (R42, R213). -/
def Quiet (s t : State) : Prop :=
  t.refused = s.refused ∧ t.pinCheck = s.pinCheck ∧ t.cur = s.cur ∧ t.sched = s.sched ∧
    ∀ c, c ≠ s.cur → t.ctrls[c]? = s.ctrls[c]?

/-- The acting controller, `k` before, ended its command with the response `w`: it is idle, and but for its temporary,
which is unspecified between commands (R39), it is as it was. -/
def Ended (k : Ctrl) (w : Word) (t : State) : Prop :=
  ∃ v, t.actor? = some { k with cmd := none, step := 0, rsp := some w, t := v }

/-- The state with every pull state forgotten: what software can tell of it (R33, R43). -/
def State.erasePull (s : State) : State := s.withRf { s.rf with pull := pinTable fun _ => .off }

/-- The pin of a command that passed ENTRY is valid when pins are checked (R141). -/
def pinAllowed (pinCheck : PinCheck) (c : Command) : Prop :=
  match c with
  | .openCmd => True
  | .closeCmd => True
  | .setPull pin _ => pinCheck = .checked → pin.toNat < 54
  | .setup pin _ _ => pinCheck = .checked → pin.toNat < 54
  | .output pin _ => pinCheck = .checked → pin.toNat < 54
  | .input pin => pinCheck = .checked → pin.toNat < 54

/-- A controller whose sequencing is sound (R38, R37, R140): an idle one is at step 0; one with a command in flight is at a
step of its program, has not yet answered, and past ENTRY it is open and its pin allowed. -/
def Ctrl.Sound (pinCheck : PinCheck) (k : Ctrl) : Prop :=
  match k.cmd with
  | none => k.step = 0
  | some c =>
    k.step < programLength c ∧ k.rsp = none ∧ (0 < k.step → k.isOpen = true ∧ pinAllowed pinCheck c)

/-- Every controller's sequencing is sound. -/
def State.Sound (s : State) : Prop := ∀ k ∈ s.ctrls, k.Sound s.pinCheck

/-- Where the pull latch sequence stands at each step of a SET_PULL or SETUP of `pin` (R165): before the staging write
nothing is staged and no strobe asserted; then the mode is staged; then the pin's strobe alone is asserted; then the
staging value is back at 0; then all is idle again. -/
def pullPhase (rf : RegFile) (pin : BitVec 32) (mode : PullMode) (step : Nat) : Prop :=
  match step with
  | 3 => rf.pud = pullCode mode ∧ rf.NoStrobe
  | 4 => rf.pud = pullCode mode ∧ ∀ p : Pin, rf.clk[p] = decide (p.val = pin.toNat)
  | 5 => rf.pud = pullCode mode ∧ ∀ p : Pin, rf.clk[p] = decide (p.val = pin.toNat)
  | 6 => rf.pud = 0 ∧ ∀ p : Pin, rf.clk[p] = decide (p.val = pin.toNat)
  | _ => rf.SeqIdle

/-- Where the pull latch stands for a controller (R234): idle but for the steps of a pull latch sequence in flight. -/
def latchPhase (rf : RegFile) (k : Ctrl) : Prop :=
  match k.cmd with
  | some (.setPull pin mode) => pullPhase rf pin mode k.step
  | some (.setup pin _ mode) => pullPhase rf pin mode k.step
  | _ => rf.SeqIdle

/-- The intended use (R64, R234, D36): pins checked, one controller, no other bus master and no raw micro-op, and the pull
latch exactly where that controller's program has brought it. -/
def State.SoloChecked (s : State) : Prop :=
  s.refused = false ∧ s.pinCheck = .checked ∧
    (∃ k, s.ctrls = [k] ∧ k.Sound s.pinCheck ∧ latchPhase s.rf k) ∧
    ∀ t ∈ s.sched, t = .ctrl 0 ∨ t = .run 0 ∨ t = .reset

end Sys2Proof.Machine
end

