-- ==== Sys2Proof/Certificates/Slice0/Obligations.lean ====
section
/-! DEFINITION. The statements for the provers. Each docstring names the rules it formalises. -/

namespace Sys2Proof.Machine

/-! ## Forms shared by statements of one shape -/

/-- A read changes nothing but the bus datum, the count of draws, and the environment's levels still to come. -/
def OnlyAnswered (s t : State) : Prop :=
  t = { s with rdata := t.rdata, draws := t.draws, levels := t.levels }

/-- What a read of FSELr does (R102): the datum holds every implemented field of the register, and no state is written. -/
def FselReadDone (r : Nat) (s : State) (o : Result) : Prop :=
  ∃ t, o = .next t ∧ OnlyAnswered s t ∧ t.levels = s.levels ∧
    ∀ p : Pin, p.val / 10 = r → fselField t.rdata (p.val % 10) = s.rf.fsel[p]

/-- What a write of FSELr does (R103): every field of the register takes the written code, and nothing else changes. -/
def FselWriteDone (r : Nat) (v : Word) (s : State) (o : Result) : Prop :=
  ∃ f, o = .next { s with rf := { s.rf with fsel := f } } ∧
    ∀ p : Pin, f[p] = if p.val / 10 = r then fselField v (p.val % 10) else s.rf.fsel[p]

/-- What a write of SETn (`b` true) or CLRn (`b` false) does (R105, R107): the zero word and, in bank 1, a reserved bit are
refused; else every 1 bit gives its pin's latch the value `b`, and nothing else changes. -/
def LatchWriteDone (n : Nat) (b : Bool) (v : Word) (s : State) (o : Result) : Prop :=
  (v = 0 → o = .refused (.zeroSetClearWrite { s with refused := true })) ∧
  (v ≠ 0 → n = 1 → v.extractLsb' 22 10 ≠ 0 → o = .refused (.reservedBitWrite { s with refused := true })) ∧
  (v ≠ 0 → ¬ (n = 1 ∧ v.extractLsb' 22 10 ≠ 0) →
    ∃ l, o = .next { s with rf := { s.rf with latch := l } } ∧
      ∀ p : Pin, l[p] = if p.val / 32 = n ∧ v.getLsbD (p.val % 32) = true then b else s.rf.latch[p])

/-- What a read of LEVn does (R109): an output pin reads its latch; the bit of every other pin and every reserved bit is a
draw, so nothing is said of it here; no state is written. -/
def LevReadDone (n : Nat) (s : State) (o : Result) : Prop :=
  ∃ t, o = .next t ∧ OnlyAnswered s t ∧
    ∀ p : Pin, p.val / 32 = n → s.rf.fsel[p] = 1#3 → t.rdata.getLsbD (p.val % 32) = s.rf.latch[p]

/-- Where the draws of a read of LEVn come from: the next levels the environment imposes, in pin order, of which the read
uses one entry. -/
def LevReadSamples (n : Nat) (s : State) (o : Result) : Prop :=
  ∃ t, o = .next t ∧ t.levels = s.levels.tail ∧
    ∀ b : Nat, b < 32 → (∀ h : 32 * n + b < 54, s.rf.fsel[32 * n + b] ≠ 1#3) →
      t.rdata.getLsbD b = s.nextLevels.getLsbD (32 * n + b)

/-- Where the reserved bits of a read of FSELr come from: the draw numbered `draws`, which the read counts. -/
def FselReadSamples (r : Nat) (s : State) (o : Result) : Prop :=
  ∃ t, o = .next t ∧ t.draws = s.draws + 1 ∧
    ∀ b : Nat, b < 32 → ¬ (b < 30 ∧ 10 * r + b / 3 < 54) → t.rdata.getLsbD b = (Config.freeFsel s.draws).getLsbD b

/-- What a write of PUDCLKn does (R114, R161, R163): in bank 1 a reserved bit is refused; else the bank's clocks become the
written bits; a strobed pin captures the staged mode if no clock of the bank was asserted and the staged code is a mode,
else becomes indeterminate; every other pull state, and everything else, is unchanged. -/
def PudclkWriteDone (n : Nat) (v : Word) (s : State) (o : Result) : Prop :=
  (n = 1 → v.extractLsb' 22 10 ≠ 0 → o = .refused (.reservedBitWrite { s with refused := true })) ∧
  (¬ (n = 1 ∧ v.extractLsb' 22 10 ≠ 0) →
    ∃ ck u, o = .next { s with rf := { s.rf with clk := ck, pull := u } } ∧
      (∀ p : Pin, ck[p] = if p.val / 32 = n then v.getLsbD (p.val % 32) else s.rf.clk[p]) ∧
      (∀ p : Pin, ¬ (p.val / 32 = n ∧ v.getLsbD (p.val % 32) = true) → u[p] = s.rf.pull[p]) ∧
      ∀ p : Pin, p.val / 32 = n → v.getLsbD (p.val % 32) = true →
        (¬ s.rf.BankIdle n → u[p] = .indeterminate) ∧
        (s.rf.BankIdle n → (s.rf.pud = 0 → u[p] = .off) ∧ (s.rf.pud = 1 → u[p] = .down) ∧
          (s.rf.pud = 2 → u[p] = .up) ∧ (s.rf.pud = 3 → u[p] = .indeterminate)))

/-- What a write of PUD does (R112, R162): the staging value becomes the low two bits; if they are not 0, every pin whose
clock is asserted becomes indeterminate; nothing else changes. -/
def PudWriteDone (v : Word) (s : State) (o : Result) : Prop :=
  ∃ u, o = .next { s with rf := { s.rf with pud := v.extractLsb' 0 2, pull := u } } ∧
    ∀ p : Pin, u[p] = if v.extractLsb' 0 2 ≠ 0 ∧ s.rf.clk[p] = true then .indeterminate else s.rf.pull[p]

/-- The end state of the pull latch sequence on the pull latch (R166). -/
def PullSequenceDone (pin : BitVec 32) (mode : PullMode) (rf rf' : RegFile) : Prop :=
  rf'.pud = 0 ∧
  (∀ q : Pin, rf'.clk[q] = if q.val / 32 = pin.toNat / 32 then false else rf.clk[q]) ∧
  (∀ q : Pin, q.val = pin.toNat →
    (rf.BankIdle (pin.toNat / 32) → rf'.pull[q] = pullStateOf mode) ∧
    (¬ rf.BankIdle (pin.toNat / 32) → rf'.pull[q] = .indeterminate)) ∧
  ∀ q : Pin, q.val ≠ pin.toNat →
    rf'.pull[q] = if mode ≠ .off ∧ rf.clk[q] = true then .indeterminate else rf.pull[q]

/-- The six commands of the command port. -/
def isCommand (i : Instr) : Bool := (commandOf i).isSome

end Sys2Proof.Machine

open Sys2Proof Sys2Proof.Machine

/-! ## Encoding -/

/-- Every well-formed instruction's encoding decodes to it, every operand at every value (R81-R88, R90-R92). -/
def Obligations.DecodeOfEncode : Prop :=
  ∀ i : Instr, WellFormed i = true → decode (encode i) = .ok i

/-- The command decoder is strict (R88): a word it accepts is the encoding of the command it gives, so every other word is
illegal. -/
def Obligations.CommandDecodeIsStrict : Prop :=
  ∀ (w : BitVec 64) (i : Instr), decodeCmd w = .ok i → isCommand i = true ∧ encode i = .cmd w

/-- The example words of R97, with the four illegal ones. -/
def Obligations.ExampleCommandWords : Prop :=
  decodeCmd 0x1000000000000000#64 = .ok .openCmd ∧ decodeCmd 0x2000000000000000#64 = .ok .closeCmd ∧
  decodeCmd 0x3800000000000007#64 = .ok (.setPull 7 .up) ∧ decodeCmd 0x3000000000000000#64 = .ok (.setPull 0 .off) ∧
  decodeCmd 0x3400000000000035#64 = .ok (.setPull 53 .down) ∧
  decodeCmd 0x4A00000000000015#64 = .ok (.setup 21 .output .up) ∧
  decodeCmd 0x4200000000000005#64 = .ok (.setup 5 .output .off) ∧
  decodeCmd 0x4400000000000028#64 = .ok (.setup 40 .input .down) ∧
  decodeCmd 0x5100000000000015#64 = .ok (.output 21 .high) ∧ decodeCmd 0x5000000000000005#64 = .ok (.output 5 .low) ∧
  decodeCmd 0x6000000000000015#64 = .ok (.input 21) ∧ decodeCmd 0x6000000000000028#64 = .ok (.input 40) ∧
  (∀ w ∈ [0x7000000000000000#64, 0x3C00000000000001#64, 0x6000000100000015#64, 0x1000000000000001#64],
    ∀ i, decodeCmd w ≠ .ok i)

/-- The bus key map (R91): each listed key selects its row, whatever the data lines hold, and every other key an unlisted
row. -/
def Obligations.BusKeyMap : Prop :=
  ∀ v : Word,
    (decodeBus (0#1 ++ 0#10 ++ v) = .rdFsel0 ∧ decodeBus (1#1 ++ 0#10 ++ v) = .wrFsel0 v ∧
     decodeBus (0#1 ++ 1#10 ++ v) = .rdFsel1 ∧ decodeBus (1#1 ++ 1#10 ++ v) = .wrFsel1 v ∧
     decodeBus (0#1 ++ 2#10 ++ v) = .rdFsel2 ∧ decodeBus (1#1 ++ 2#10 ++ v) = .wrFsel2 v ∧
     decodeBus (0#1 ++ 3#10 ++ v) = .rdFsel3 ∧ decodeBus (1#1 ++ 3#10 ++ v) = .wrFsel3 v ∧
     decodeBus (0#1 ++ 4#10 ++ v) = .rdFsel4 ∧ decodeBus (1#1 ++ 4#10 ++ v) = .wrFsel4 v ∧
     decodeBus (0#1 ++ 5#10 ++ v) = .rdFsel5 ∧ decodeBus (1#1 ++ 5#10 ++ v) = .wrFsel5 v) ∧
    (decodeBus (0#1 ++ 7#10 ++ v) = .rdSet0 ∧ decodeBus (1#1 ++ 7#10 ++ v) = .wrSet0 v ∧
     decodeBus (0#1 ++ 8#10 ++ v) = .rdSet1 ∧ decodeBus (1#1 ++ 8#10 ++ v) = .wrSet1 v ∧
     decodeBus (0#1 ++ 10#10 ++ v) = .rdClr0 ∧ decodeBus (1#1 ++ 10#10 ++ v) = .wrClr0 v ∧
     decodeBus (0#1 ++ 11#10 ++ v) = .rdClr1 ∧ decodeBus (1#1 ++ 11#10 ++ v) = .wrClr1 v ∧
     decodeBus (0#1 ++ 13#10 ++ v) = .rdLev0 ∧ decodeBus (1#1 ++ 13#10 ++ v) = .wrLev0 v ∧
     decodeBus (0#1 ++ 14#10 ++ v) = .rdLev1 ∧ decodeBus (1#1 ++ 14#10 ++ v) = .wrLev1 v) ∧
    (decodeBus (0#1 ++ 37#10 ++ v) = .rdPud ∧ decodeBus (1#1 ++ 37#10 ++ v) = .wrPud v ∧
     decodeBus (0#1 ++ 38#10 ++ v) = .rdPudclk0 ∧ decodeBus (1#1 ++ 38#10 ++ v) = .wrPudclk0 v ∧
     decodeBus (0#1 ++ 39#10 ++ v) = .rdPudclk1 ∧ decodeBus (1#1 ++ 39#10 ++ v) = .wrPudclk1 v) ∧
    ∀ i : BitVec 10,
      (¬ (i.toNat ≤ 5 ∨ i.toNat = 7 ∨ i.toNat = 8 ∨ i.toNat = 10 ∨ i.toNat = 11 ∨ i.toNat = 13 ∨ i.toNat = 14 ∨
          i.toNat = 37 ∨ i.toNat = 38 ∨ i.toNat = 39)) →
      decodeBus (0#1 ++ i ++ v) = .rdUnlisted i ∧ decodeBus (1#1 ++ i ++ v) = .wrUnlisted i v

/-- The response word (R89): STATUS in bits 7:0, LEVEL in bit 8, zero above. -/
def Obligations.ResponseWordFields : Prop :=
  ∀ (st : Status) (level : Bool),
    (rspWord st level).extractLsb' 0 8 = statusCode st ∧ (rspWord st level).getLsbD 8 = level ∧
      (rspWord st level).extractLsb' 9 23 = 0

/-- The byte views of a register word have the byte order of R52: byte k is bits 8k+7 to 8k, and the word is its four bytes,
the one at the lowest offset least significant. No step reads them, since every access moves a whole word (R53): that the
byte order shows in these two functions only is the model's inference (log entry 19, DEDUCED). -/
def Obligations.LittleEndianWords : Prop :=
  (∀ (v : Word) (k i : Nat), k < 4 → i < 8 → (wordByte v k).getLsbD i = v.getLsbD (8 * k + i)) ∧
    ∀ v : Word, wordOfBytes (wordByte v 0) (wordByte v 1) (wordByte v 2) (wordByte v 3) = v

/-- Which register and bit serve a pin, for every valid pin (R117, R13). -/
def Obligations.PinIndexTable : Prop :=
  ∀ p : Pin,
    (p.val < 32 → setIndex p = 7 ∧ clrIndex p = 10 ∧ levIndex p = 13 ∧ pudclkIndex p = 38 ∧ bitOf p = p) ∧
    (32 ≤ p.val → setIndex p = 8 ∧ clrIndex p = 11 ∧ levIndex p = 14 ∧ pudclkIndex p = 39 ∧ bitOf p = p - 32) ∧
    fselIndex p = p / 10 ∧ fselShift p = 3 * (p % 10)

/-! ## Reset -/

/-- What reset leaves (R44): the sequencer idle, every controller closed and idle, no refusal, and every field, latch and
pull state a draw. Which opaque constant stands for a draw is the model's choice (log entry 9). -/
def Obligations.ResetState : Prop :=
  State.reset.rf.pud = 0 ∧ (∀ p : Pin, State.reset.rf.clk[p] = false) ∧ State.reset.refused = false ∧
    (∀ k ∈ State.reset.ctrls, k.isOpen = false ∧ k.cmd = none ∧ k.step = 0) ∧ State.reset.ctrls.length = 1 ∧
    ∀ p : Pin, State.reset.rf.fsel[p] = Config.resetFsel 0 p ∧ State.reset.rf.latch[p] = Config.resetLatch 0 p ∧
      State.reset.rf.pull[p] = Config.resetPull 0 p

/-- A reset from outside (R230): from any state that is not refused (a refused one stays refused: log entry 4), the reset
turn leaves the values of R44 and keeps the number of controllers. That each field, latch and pull state is the opaque
`Config.reset...` constant of the count of draws is the model's choice (log entry 9); that the words each host still has to
give stay, and the last response is forgotten, is the model's choice too (log entry 18). -/
def Obligations.ResetTurn : Prop :=
  ∀ (s : State) (rest : List Turn), s.refused = false → s.sched = .reset :: rest →
    ∃ t, step s = .next t ∧ t.rf.pud = 0 ∧ (∀ p : Pin, t.rf.clk[p] = false) ∧ t.refused = false ∧
      t.ctrls.length = s.ctrls.length ∧
      (∀ k ∈ t.ctrls, k.isOpen = false ∧ k.cmd = none ∧ k.step = 0 ∧ k.rsp = none) ∧
      (∀ c : Nat, (t.ctrls[c]?).map Ctrl.pending = (s.ctrls[c]?).map Ctrl.pending) ∧
      (∀ p : Pin, t.rf.fsel[p] = Config.resetFsel s.draws p ∧ t.rf.latch[p] = Config.resetLatch s.draws p ∧
        t.rf.pull[p] = Config.resetPull s.draws p) ∧
      t.pinCheck = s.pinCheck ∧ t.sched = rest

/-! ## The step -/

/-- A step runs the decoded command: with controller `c` idle, its host's next word decoding to `i`, and a turn that runs
the command to its end, step is exec of `i` with the word taken, the turn taken and `c` acting. -/
def Obligations.StepRunsDecodedCommand : Prop :=
  ∀ (s : State) (c : Nat) (k : Ctrl) (w : BitVec 64) (ws : List (BitVec 64)) (rest : List Turn) (i : Instr),
    s.refused = false → s.sched = .run c :: rest → s.ctrls[c]? = some k → k.cmd = none → k.pending = w :: ws →
    decodeCmd w = .ok i →
    step s = exec i
      { s with
        sched := rest
        cur := c
        ctrls := s.ctrls.modify c fun k => { k with pending := ws } }

/-- A step runs the decoded bus request or micro-op: a bus request of another master is exec of its row; a 32-bit aligned
foreign access in the window is exec of its row; a raw micro-op is exec of it on its controller. -/
def Obligations.StepRunsDecodedTransaction : Prop :=
  ∀ (s : State) (rest : List Turn), s.refused = false →
    (∀ w, s.sched = .bus w :: rest → step s = exec (decodeBus w) { s with sched := rest }) ∧
    (∀ c w i, s.sched = .uop c w :: rest → decodeUop w = .ok i →
      step s = exec i { s with sched := rest, cur := c }) ∧
    ∀ a : ForeignAccess, s.sched = .foreign a :: rest → a.width = 32 → a.offset % 4 = 0 → a.offset < 4096 →
      step s = exec (decodeBus (BitVec.ofBool a.write ++ BitVec.ofNat 10 (a.offset / 4) ++ a.data))
        { s with sched := rest }

/-- An access of another width is refused (R53); a misaligned one is refused (R54). Which of the two names a refusal has
when both hold is the model's choice (log entry 13). -/
def Obligations.ForeignAccessRefused : Prop :=
  ∀ (s : State) (rest : List Turn) (a : ForeignAccess), s.refused = false → s.sched = .foreign a :: rest →
    (a.width ≠ 32 → step s = .refused (.subWordAccess { s with sched := rest, refused := true })) ∧
    (a.width = 32 → a.offset % 4 ≠ 0 → step s = .refused (.misaligned { s with sched := rest, refused := true }))

/-- The issue step (R140, R205): on an idle controller a legal word becomes the command in flight at step 0, an illegal one
is answered with ERR_ILLEGAL_CMD, and nothing else changes. -/
def Obligations.IssueStep : Prop :=
  ∀ (s : State) (c : Nat) (k : Ctrl) (w : BitVec 64) (ws : List (BitVec 64)) (rest : List Turn),
    s.refused = false → s.sched = .ctrl c :: rest → s.ctrls[c]? = some k → k.cmd = none → k.pending = w :: ws →
    (∀ i cmd, decodeCmd w = .ok i → commandOf i = some cmd →
      step s = .next
        { s with
          sched := rest
          cur := c
          ctrls := s.ctrls.modify c fun k => { k with pending := ws, cmd := some cmd, step := 0, rsp := none } }) ∧
    ((∀ i, decodeCmd w ≠ .ok i) →
      step s = .next
        { s with
          sched := rest
          cur := c
          ctrls := s.ctrls.modify c fun k => { k with pending := ws, rsp := some 0x6#32 } })

/-- The micro-op step (R140): with a command in flight, a turn of its controller performs exactly the program's micro-op at
the counter. On an open controller a raw access that completes is exec of that raw access, after which the counter advances
or, at the program's last step, the command ends with status OK. On a closed one, which reaches no window (R51), a raw
access ends the command with ERR_NOT_OPEN and nothing else changes; that it has this status is the model's choice (log
entry 14). -/
def Obligations.MicroOpStep : Prop :=
  ∀ (s : State) (c : Nat) (k : Ctrl) (cmd : Command) (rest : List Turn),
    s.refused = false → s.sched = .ctrl c :: rest → s.ctrls[c]? = some k → k.cmd = some cmd →
    (∀ i t, k.isOpen = true → microOp cmd k.step k.t = some (.read i) → i < 1024 →
      exec (.readReg i) { s with sched := rest, cur := c } = .next t →
      step s = .next (if k.step + 1 = programLength cmd then
        endCommand .ok (match t.actor? with | none => false | some k => responseLevel cmd k.t) t
        else t.modifyActor Ctrl.advance)) ∧
    (∀ i v t, k.isOpen = true → microOp cmd k.step k.t = some (.write i v) → i < 1024 →
      exec (.writeReg i v) { s with sched := rest, cur := c } = .next t →
      step s = .next (if k.step + 1 = programLength cmd then
        endCommand .ok (match t.actor? with | none => false | some k => responseLevel cmd k.t) t
        else t.modifyActor Ctrl.advance)) ∧
    ∀ i v, k.isOpen = false →
      (microOp cmd k.step k.t = some (.read i) ∨ microOp cmd k.step k.t = some (.write i v)) →
      step s = .next (endCommand .errNotOpen false { s with sched := rest, cur := c })

/-- An error ends the command at the micro-op that raises it (R202): the response carries the code, the controller is idle
and as open as before, and the register file is what the micro-ops before left. -/
def Obligations.ErrorEndsCommand : Prop :=
  ∀ (s s' : State) (k : Ctrl) (cmd : Command) (op : MicroOp) (st : Status),
    s.actor? = some k → k.cmd = some cmd → microOp cmd k.step k.t = some op → performMicro op s = .next (s', some st) →
    ∃ t, microStep s = .next t ∧ Ended k (rspWord st false) t ∧ t.rf = s.rf ∧ Quiet s t

/-- With an empty schedule, a block whose controllers are all idle with no word waiting waits (R215); otherwise the first
controller that has a command in flight or a word waiting makes its turn. That it is the first one is the model's choice
(log entry 2). -/
def Obligations.IdleBlockWaits : Prop :=
  ∀ s : State, s.refused = false → s.sched = [] →
    ((∀ k ∈ s.ctrls, k.cmd = none ∧ k.pending = []) → step s = .next s) ∧
    ∀ (c : Nat) (k : Ctrl), s.ctrls[c]? = some k → (k.cmd ≠ none ∨ k.pending ≠ []) →
      (∀ (j : Nat) (k' : Ctrl), j < c → s.ctrls[j]? = some k' → k'.cmd = none ∧ k'.pending = []) →
      step s = step { s with sched := [.ctrl c] }

/-- A refused state goes nowhere and is never final (R14, R41: the mark is never cleared). That this holds of a scheduled
reset too, R41 winning over the `refused = false` of R230, is the model's inference (log entry 4, DEDUCED). -/
def Obligations.RefusedStateIsStuck : Prop :=
  ∀ s : State, s.refused = true → step s = .refused (.alreadyRefused s) ∧ ¬ s.Final

/-- A command run undisturbed is its issue step and its micro-op steps (R64, R140): whatever state a whole-command turn
reaches, at most ten one-step turns of the same controller reach. -/
def Obligations.WholeCommandIsItsSteps : Prop :=
  ∀ (s t : State) (c : Nat) (k : Ctrl) (w : BitVec 64) (ws : List (BitVec 64)) (rest : List Turn),
    s.refused = false → s.sched = .run c :: rest → s.ctrls[c]? = some k → k.cmd = none → k.pending = w :: ws →
    step s = .next t →
    ∃ n, 1 ≤ n ∧ n ≤ 10 ∧ steps n { s with sched := List.replicate n (.ctrl c) ++ rest } = .next t

/-- The micro-op programs (R149). -/
def Obligations.MicroOpPrograms : Prop :=
  ∀ (pin : BitVec 32) (d : PinDirection) (m : PullMode) (l : PinLevel) (t : Word),
    (microOp .openCmd 0 t = some .openWindow ∧ programLength .openCmd = 1) ∧
    (microOp .closeCmd 0 t = some .closeWindow ∧ programLength .closeCmd = 1) ∧
    (∀ n, n < 7 → microOp (.setPull pin m) n t =
      [some (.entry pin), some (.read 37), some (.write 37 ((t &&& 0xFFFFFFFC#32) ||| pullWord m)),
       some (.write (38 + pin.toNat / 32) (onehot pin.toNat)), some (.read 37),
       some (.write 37 (t &&& 0xFFFFFFFC#32)), some (.write (38 + pin.toNat / 32) 0)][n]?.join) ∧
    programLength (.setPull pin m) = 7 ∧
    (∀ n, n < 7 → microOp (.setup pin d m) n t = microOp (.setPull pin m) n t) ∧
    (microOp (.setup pin d m) 7 t = some (.read (0 + pin.toNat / 10)) ∧
     microOp (.setup pin d m) 8 t = some (.write (0 + pin.toNat / 10)
      ((t &&& ~~~(0x7#32 <<< (pin.toNat % 10 * 3))) ||| ((dirCode d).zeroExtend 32 <<< (pin.toNat % 10 * 3)))) ∧
     programLength (.setup pin d m) = 9) ∧
    (microOp (.output pin l) 0 t = some (.entry pin) ∧
     microOp (.output pin l) 1 t =
      some (.write ((if l = .high then 7 else 10) + pin.toNat / 32) (onehot pin.toNat)) ∧
     programLength (.output pin l) = 2) ∧
    (microOp (.input pin) 0 t = some (.entry pin) ∧ microOp (.input pin) 1 t = some (.read (13 + pin.toNat / 32)) ∧
     programLength (.input pin) = 2)

/-! ## OPEN and CLOSE -/

/-- OPEN (R142), with its word, on a closed, idle controller: OK opens it, the two failures leave it closed with ERR_OPEN or
ERR_MAP, by the environment's outcome; an open one answers ERR_ALREADY_OPEN. The register file is untouched. That the
outcome is the head of a list of the state, of which one entry is used, is the model's choice (log entry 7). -/
def Obligations.OpenResult : Prop :=
  ∀ (s : State) (k : Ctrl), s.IdleActor k → decodeCmd 0x1000000000000000#64 = .ok .openCmd ∧
    (k.isOpen = true → ∃ t, exec .openCmd s = .next t ∧ Ended k 0x7#32 t ∧ t.rf = s.rf ∧ Quiet s t ∧
      t.opens = s.opens ∧ t.levels = s.levels ∧ t.rdata = s.rdata) ∧
    (k.isOpen = false → ∃ t, exec .openCmd s = .next t ∧
      (s.nextOpen = .ok → Ended { k with isOpen := true } 0x0#32 t) ∧ (s.nextOpen = .openFail → Ended k 0x1#32 t) ∧
      (s.nextOpen = .mapFail → Ended k 0x2#32 t) ∧ t.rf = s.rf ∧ Quiet s t ∧ t.opens = s.opens.tail ∧
      t.levels = s.levels ∧ t.rdata = s.rdata)

/-- CLOSE (R143), with its word: an open controller is closed with OK, a closed one answers ERR_NOT_OPEN. The register file is
untouched. -/
def Obligations.CloseResult : Prop :=
  ∀ (s : State) (k : Ctrl), s.IdleActor k → decodeCmd 0x2000000000000000#64 = .ok .closeCmd ∧
    ∃ t, exec .closeCmd s = .next t ∧ (k.isOpen = true → Ended { k with isOpen := false } 0x0#32 t) ∧
      (k.isOpen = false → Ended k 0x5#32 t) ∧ t.rf = s.rf ∧ Quiet s t ∧ t.opens = s.opens ∧ t.levels = s.levels ∧
      t.rdata = s.rdata

/-- Ownership (R144): OPEN and CLOSE, whatever they answer, leave the register file untouched, and only they change whether
a controller is open. -/
def Obligations.OwnershipRule : Prop :=
  ∀ (i : Instr) (s t : State), exec i s = .next t →
    ((i = .openCmd ∨ i = .closeCmd) → t.rf = s.rf) ∧
    (i ≠ .openCmd → i ≠ .closeCmd → ∀ c : Nat, (t.ctrls[c]?).map Ctrl.isOpen = (s.ctrls[c]?).map Ctrl.isOpen)

/-! ## Errors -/

/-- ENTRY (R141) and the order of errors (R204): a pin command on a closed controller answers ERR_NOT_OPEN, whatever its pin;
on an open one with pins checked and the pin not valid it answers ERR_INVALID_PIN; in both cases nothing else changes. -/
def Obligations.EntryErrors : Prop :=
  ∀ (s : State) (k : Ctrl) (pin : BitVec 32) (d : PinDirection) (m : PullMode) (l : PinLevel), s.IdleActor k →
    ∀ i ∈ [Instr.setPull pin m, .setup pin d m, .output pin l, .input pin],
      (k.isOpen = false → ∃ t, exec i s = .next t ∧ Ended k 0x5#32 t ∧ t.rf = s.rf ∧ Quiet s t ∧
        t.rdata = s.rdata ∧ t.opens = s.opens ∧ t.levels = s.levels) ∧
      (k.isOpen = true → s.pinCheck = .checked → 54 ≤ pin.toNat → ∃ t, exec i s = .next t ∧ Ended k 0x4#32 t ∧
        t.rf = s.rf ∧ Quiet s t ∧ t.rdata = s.rdata ∧ t.opens = s.opens ∧ t.levels = s.levels)

/-- A command for a controller with a command in flight has no issue step (R140, R216): it is a fault. -/
def Obligations.BusyPortFaults : Prop :=
  ∀ (s : State) (k : Ctrl) (i : Instr), s.actor? = some k → k.cmd ≠ none → isCommand i = true →
    exec i s = .fault .commandPortBusy

/-- Bounds errors of SET_PULL and SETUP with pins unchecked (R203, R167): from pin 31552 on they end with ERR_BOUNDS at
step 3: the mode stays staged, and no clock, function select or latch has changed. A pin whose clock was asserted when a
mode other than Off was staged has become indeterminate, as R162 says of the write of PUD at step 2 (R112); that R203's
"no pull state has changed" speaks of a start with no clock asserted is the model's reading (log entry 25). -/
def Obligations.PullSequenceBoundsError : Prop :=
  ∀ (s : State) (k : Ctrl) (pin : BitVec 32) (d : PinDirection) (m : PullMode), s.IdleActor k → k.isOpen = true →
    s.pinCheck = .unchecked → 31552 ≤ pin.toNat →
    ∀ i ∈ [Instr.setPull pin m, .setup pin d m],
      ∃ t, exec i s = .next t ∧ Ended k 0x3#32 t ∧ t.rf.pud = pullCode m ∧ t.rf.clk = s.rf.clk ∧
        t.rf.fsel = s.rf.fsel ∧ t.rf.latch = s.rf.latch ∧
        (∀ p : Pin, t.rf.pull[p] = if m ≠ .off ∧ s.rf.clk[p] = true then .indeterminate else s.rf.pull[p]) ∧ Quiet s t

/-- SET_PULL and SETUP with pins unchecked and a pin of 54 to 31551 are refused at step 3 (R148, R167), the mode already
staged. -/
def Obligations.PullSequenceRefusedBeyondPins : Prop :=
  ∀ (s : State) (k : Ctrl) (pin : BitVec 32) (d : PinDirection) (m : PullMode), s.IdleActor k → k.isOpen = true →
    s.pinCheck = .unchecked → 54 ≤ pin.toNat → pin.toNat < 31552 →
    ∀ i ∈ [Instr.setPull pin m, .setup pin d m],
      ∃ u : State, u.refused = true ∧ u.rf.pud = pullCode m ∧ u.rf.clk = s.rf.clk ∧
        (u.actor?).map Ctrl.step = some 3 ∧
        (pin.toNat < 64 → exec i s = .refused (.reservedBitWrite u)) ∧
        (64 ≤ pin.toNat → exec i s = .refused (.unlistedRegister u))

/-! ## SET_PULL and SETUP -/

/-- SET_PULL of a valid pin by an open, idle controller (R165, R166): it answers OK, the pull latch ends as R166 says, every
function select and latch is unchanged; so from SeqIdle it sets exactly the pin's pull state and ends in SeqIdle (R45). -/
def Obligations.SetPullResult : Prop :=
  ∀ (s : State) (k : Ctrl) (pin : BitVec 32) (m : PullMode), s.IdleActor k → k.isOpen = true → pin.toNat < 54 →
    ∃ t, exec (.setPull pin m) s = .next t ∧ Ended k 0x0#32 t ∧ PullSequenceDone pin m s.rf t.rf ∧
      t.rf.fsel = s.rf.fsel ∧ t.rf.latch = s.rf.latch ∧ Quiet s t ∧ t.opens = s.opens ∧ t.levels = s.levels ∧
      (s.rf.SeqIdle → t.rf.SeqIdle ∧
        ∀ q : Pin, t.rf.pull[q] = if q.val = pin.toNat then pullStateOf m else s.rf.pull[q])

/-- SETUP of a valid pin by an open, idle controller (R180, R183): it answers OK, the pull latch ends as after SET_PULL, the
pin's field is the direction code and every other field is unchanged, no latch changes, and the pad's output enable follows
(R34). -/
def Obligations.SetupResult : Prop :=
  ∀ (s : State) (k : Ctrl) (pin : BitVec 32) (d : PinDirection) (m : PullMode), s.IdleActor k → k.isOpen = true →
    pin.toNat < 54 →
    ∃ t, exec (.setup pin d m) s = .next t ∧ Ended k 0x0#32 t ∧ PullSequenceDone pin m s.rf t.rf ∧
      (∀ q : Pin, t.rf.fsel[q] = if q.val = pin.toNat then dirCode d else s.rf.fsel[q]) ∧ t.rf.latch = s.rf.latch ∧
      (∀ q : Pin, q.val = pin.toNat → padOe t.rf q = decide (d = .output)) ∧ Quiet s t ∧ t.opens = s.opens ∧
      t.levels = s.levels

/-- Pull before direction (R184): no micro-op of SETUP before the last changes a function-select field, and none after the
sixth changes the pull latch. -/
def Obligations.SetupPullBeforeDirection : Prop :=
  ∀ (s t : State) (k : Ctrl) (pin : BitVec 32) (d : PinDirection) (m : PullMode), s.actor? = some k →
    k.cmd = some (.setup pin d m) → pin.toNat < 54 → microStep s = .next t →
    (k.step < 8 → t.rf.fsel = s.rf.fsel) ∧
    (6 < k.step → t.rf.pull = s.rf.pull ∧ t.rf.clk = s.rf.clk ∧ t.rf.pud = s.rf.pud)

/-! ## OUTPUT and INPUT -/

/-- OUTPUT of a valid pin by an open, idle controller (R181): it answers OK, the pin's latch takes the level, and nothing
else changes. -/
def Obligations.OutputResult : Prop :=
  ∀ (s : State) (k : Ctrl) (pin : BitVec 32) (l : PinLevel), s.IdleActor k → k.isOpen = true → pin.toNat < 54 →
    ∃ t, exec (.output pin l) s = .next t ∧ Ended k 0x0#32 t ∧ t.rf = { s.rf with latch := t.rf.latch } ∧
      (∀ q : Pin, t.rf.latch[q] = if q.val = pin.toNat then levelBool l else s.rf.latch[q]) ∧ Quiet s t ∧
      t.rdata = s.rdata ∧ t.opens = s.opens ∧ t.levels = s.levels

/-- OUTPUT with any pin that passes ENTRY is exactly one bus write of the one-hot word to the set or the clear register's
index (R181, R148): out of bounds it ends with ERR_BOUNDS and nothing changed; a refused write is refused; else the register
file becomes what that write makes of it. -/
def Obligations.OutputIsOneWrite : Prop :=
  ∀ (s : State) (k : Ctrl) (pin : BitVec 32) (l : PinLevel) (i : Nat), s.IdleActor k → k.isOpen = true →
    (s.pinCheck = .unchecked ∨ pin.toNat < 54) →
    i = (if l = .high then 7 else 10) + pin.toNat / 32 →
    (1024 ≤ i → ∃ t, exec (.output pin l) s = .next t ∧ Ended k 0x3#32 t ∧ t.rf = s.rf ∧ Quiet s t) ∧
    (i < 1024 → ∀ u, busWrite i (onehot pin.toNat) s = .next u →
      ∃ t, exec (.output pin l) s = .next t ∧ Ended k 0x0#32 t ∧ t.rf = u.rf ∧ Quiet s t) ∧
    (i < 1024 → (∀ u, busWrite i (onehot pin.toNat) s ≠ .next u) →
      ∃ r, exec (.output pin l) s = .refused r)

/-- The aliasing examples of R148 and R234 with pins unchecked: `output 96, high` clears the latch of pin 0; `output 960,
high` stages code 1; `output 992, high` leaves the clock of pin 0 asserted. -/
def Obligations.UncheckedOutputAliases : Prop :=
  ∀ (s : State) (k : Ctrl), s.IdleActor k → k.isOpen = true → s.pinCheck = .unchecked →
    (∃ t, exec (.output 96 .high) s = .next t ∧ Ended k 0x0#32 t ∧ t.rf.latch[0] = false) ∧
    (∃ t, exec (.output 960 .high) s = .next t ∧ Ended k 0x0#32 t ∧ t.rf.pud = 1 ∧
      ∀ p : Pin, s.rf.clk[p] = true → t.rf.pull[p] = .indeterminate) ∧
    ∃ t, exec (.output 992 .high) s = .next t ∧ Ended k 0x0#32 t ∧ t.rf.clk[0] = true

/-- INPUT of a valid pin by an open, idle controller (R182, R30): it answers High exactly when the pin's level is 1: the
latch of an output pin, the environment's level at this read for any other; the register file is unchanged. -/
def Obligations.InputResult : Prop :=
  ∀ (s : State) (k : Ctrl) (pin : BitVec 32) (h : pin.toNat < 54), s.IdleActor k → k.isOpen = true →
    ∃ t, exec (.input pin) s = .next t ∧
      Ended k (if (if s.rf.fsel[pin.toNat] = 1#3 then s.rf.latch[pin.toNat] else s.nextLevels.getLsbD pin.toNat) = true
        then 0x100#32 else 0x0#32) t ∧
      t.rf = s.rf ∧ Quiet s t ∧ t.opens = s.opens ∧ t.levels = s.levels.tail

/-- INPUT with any pin that passes ENTRY is exactly one bus read of `lev_index` (R182, R148): out of bounds it ends with
ERR_BOUNDS and nothing read; a refused read is refused; else the response's level is the pin's bit of the datum. -/
def Obligations.InputIsOneRead : Prop :=
  ∀ (s : State) (k : Ctrl) (pin : BitVec 32) (i : Nat), s.IdleActor k → k.isOpen = true →
    (s.pinCheck = .unchecked ∨ pin.toNat < 54) → i = 13 + pin.toNat / 32 →
    (1024 ≤ i → ∃ t, exec (.input pin) s = .next t ∧ Ended k 0x3#32 t ∧ t.rf = s.rf ∧ t.rdata = s.rdata ∧ Quiet s t) ∧
    (i < 1024 → ∀ u, busRead i s = .next u →
      ∃ t, exec (.input pin) s = .next t ∧
        Ended k (if u.rdata.getLsbD (pin.toNat % 32) = true then 0x100#32 else 0x0#32) t ∧ t.rf = s.rf ∧ Quiet s t) ∧
    (i < 1024 → (∀ u, busRead i s ≠ .next u) → ∃ r, exec (.input pin) s = .refused r)

/-- The loopback property (R186), for every valid pin and pull mode: SETUP as output, OUTPUT High, INPUT answers High,
whatever the environment's draws. -/
def Obligations.LoopbackReadsHigh : Prop :=
  ∀ (s : State) (k : Ctrl) (pin : BitVec 32) (m : PullMode), s.IdleActor k → k.isOpen = true → pin.toNat < 54 →
    ∃ t1 t2 t3 k3, exec (.setup pin .output m) s = .next t1 ∧ exec (.output pin .high) t1 = .next t2 ∧
      exec (.input pin) t2 = .next t3 ∧ t3.actor? = some k3 ∧ k3.rsp = some 0x100#32

/-! ## Raw register access -/

/-- READ_REG (R146): a closed controller reaches no window (R51), so it raises ERR_NOT_OPEN with no bus transaction; an open
one out of bounds raises ERR_BOUNDS with no bus transaction; in bounds `t` and the bus hold the datum of the register's read
rule (R102, R109, R111), or the read is refused (R106, R108, R113, R119). That a raw access can stand outside a program,
that the closed controller's status is ERR_NOT_OPEN, and that an error is answered when no command is in flight, is the
model's choice (log entry 14). -/
def Obligations.ReadRegResult : Prop :=
  ∀ (s : State) (k : Ctrl) (i : Nat), s.actor? = some k →
    (k.isOpen = false → ∃ t, exec (.readReg i) s = .next t ∧ Ended k 0x5#32 t ∧ t.rf = s.rf ∧ t.rdata = s.rdata ∧
      t.levels = s.levels ∧ Quiet s t) ∧
    (k.isOpen = true → 1024 ≤ i → ∃ t, exec (.readReg i) s = .next t ∧ Ended k 0x3#32 t ∧ t.rf = s.rf ∧
      t.rdata = s.rdata ∧ t.levels = s.levels ∧ Quiet s t) ∧
    (k.isOpen = true → i ≤ 5 ∨ i = 13 ∨ i = 14 ∨ i = 37 →
      ∃ t, exec (.readReg i) s = .next t ∧ t.actor? = some { k with t := t.rdata } ∧ t.rf = s.rf ∧ Quiet s t ∧
        (i ≤ 5 → ∀ p : Pin, p.val / 10 = i → fselField t.rdata (p.val % 10) = s.rf.fsel[p]) ∧
        (13 ≤ i → i ≤ 14 → ∀ p : Pin, p.val / 32 = i - 13 → s.rf.fsel[p] = 1#3 →
          t.rdata.getLsbD (p.val % 32) = s.rf.latch[p]) ∧
        (i = 37 → t.rdata.extractLsb' 0 2 = s.rf.pud)) ∧
    (k.isOpen = true → i = 7 ∨ i = 8 ∨ i = 10 ∨ i = 11 ∨ i = 38 ∨ i = 39 →
      exec (.readReg i) s = .refused (.readOfWriteOnly { s with refused := true })) ∧
    (k.isOpen = true → i < 1024 → listedWord i = false →
      exec (.readReg i) s = .refused (.unlistedRegister { s with refused := true }))

/-- WRITE_REG (R147): a closed controller reaches no window (R51), so it raises ERR_NOT_OPEN with no bus transaction; an open
one out of bounds raises ERR_BOUNDS with no bus transaction; in bounds the register's write rule gives the effect (R103,
R105, R107, R112, R114) or the refusal (R110, R119). That a raw access can stand outside a program, that the closed
controller's status is ERR_NOT_OPEN, and that an error is answered when no command is in flight, is the model's choice (log
entry 14). -/
def Obligations.WriteRegResult : Prop :=
  ∀ (s : State) (k : Ctrl) (i : Nat) (v : Word), s.actor? = some k →
    (k.isOpen = false → ∃ t, exec (.writeReg i v) s = .next t ∧ Ended k 0x5#32 t ∧ t.rf = s.rf ∧ t.rdata = s.rdata ∧
      Quiet s t) ∧
    (k.isOpen = true →
      (1024 ≤ i → ∃ t, exec (.writeReg i v) s = .next t ∧ Ended k 0x3#32 t ∧ t.rf = s.rf ∧ t.rdata = s.rdata ∧
        Quiet s t) ∧
      (i ≤ 5 → FselWriteDone i v s (exec (.writeReg i v) s)) ∧
      (i = 7 ∨ i = 8 → LatchWriteDone (i - 7) true v s (exec (.writeReg i v) s)) ∧
      (i = 10 ∨ i = 11 → LatchWriteDone (i - 10) false v s (exec (.writeReg i v) s)) ∧
      (i = 13 ∨ i = 14 → exec (.writeReg i v) s = .refused (.writeToReadOnly { s with refused := true })) ∧
      (i = 37 → PudWriteDone v s (exec (.writeReg i v) s)) ∧
      (i = 38 ∨ i = 39 → PudclkWriteDone (i - 38) v s (exec (.writeReg i v) s)) ∧
      (i < 1024 → listedWord i = false →
        exec (.writeReg i v) s = .refused (.unlistedRegister { s with refused := true })))

/-! ## Bus transactions -/

/-- RD FSELr for r = 0 to 5, with its keys (R102). -/
def Obligations.FselReads : Prop :=
  (∀ d : Word, decodeBus (0#1 ++ 0#10 ++ d) = .rdFsel0 ∧ decodeBus (0#1 ++ 1#10 ++ d) = .rdFsel1 ∧
    decodeBus (0#1 ++ 2#10 ++ d) = .rdFsel2 ∧ decodeBus (0#1 ++ 3#10 ++ d) = .rdFsel3 ∧
    decodeBus (0#1 ++ 4#10 ++ d) = .rdFsel4 ∧ decodeBus (0#1 ++ 5#10 ++ d) = .rdFsel5) ∧
  ∀ s : State, FselReadDone 0 s (exec .rdFsel0 s) ∧ FselReadDone 1 s (exec .rdFsel1 s) ∧
    FselReadDone 2 s (exec .rdFsel2 s) ∧ FselReadDone 3 s (exec .rdFsel3 s) ∧ FselReadDone 4 s (exec .rdFsel4 s) ∧
    FselReadDone 5 s (exec .rdFsel5 s)

/-- WR FSELr for r = 0 to 5, with its keys (R103). -/
def Obligations.FselWrites : Prop :=
  (∀ v : Word, decodeBus (1#1 ++ 0#10 ++ v) = .wrFsel0 v ∧ decodeBus (1#1 ++ 1#10 ++ v) = .wrFsel1 v ∧
    decodeBus (1#1 ++ 2#10 ++ v) = .wrFsel2 v ∧ decodeBus (1#1 ++ 3#10 ++ v) = .wrFsel3 v ∧
    decodeBus (1#1 ++ 4#10 ++ v) = .wrFsel4 v ∧ decodeBus (1#1 ++ 5#10 ++ v) = .wrFsel5 v) ∧
  ∀ (s : State) (v : Word), FselWriteDone 0 v s (exec (.wrFsel0 v) s) ∧ FselWriteDone 1 v s (exec (.wrFsel1 v) s) ∧
    FselWriteDone 2 v s (exec (.wrFsel2 v) s) ∧ FselWriteDone 3 v s (exec (.wrFsel3 v) s) ∧
    FselWriteDone 4 v s (exec (.wrFsel4 v) s) ∧ FselWriteDone 5 v s (exec (.wrFsel5 v) s)

/-- Writing back the word a read of FSELr returned leaves the register file unchanged, whatever its reserved bits held
(R103, corner cases). -/
def Obligations.FselWriteBackUnchanged : Prop :=
  ∀ (s t : State) (r : Nat), r ≤ 5 → exec (.readReg r) s = .next t →
    ∃ u, exec (.writeReg r t.rdata) t = .next u ∧ u.rf = s.rf

/-- WR SETn, with its keys (R105). -/
def Obligations.SetWrites : Prop :=
  ∀ (s : State) (v : Word), decodeBus (1#1 ++ 7#10 ++ v) = .wrSet0 v ∧ decodeBus (1#1 ++ 8#10 ++ v) = .wrSet1 v ∧
    LatchWriteDone 0 true v s (exec (.wrSet0 v) s) ∧ LatchWriteDone 1 true v s (exec (.wrSet1 v) s)

/-- WR CLRn, with its keys (R107). -/
def Obligations.ClrWrites : Prop :=
  ∀ (s : State) (v : Word), decodeBus (1#1 ++ 10#10 ++ v) = .wrClr0 v ∧ decodeBus (1#1 ++ 11#10 ++ v) = .wrClr1 v ∧
    LatchWriteDone 0 false v s (exec (.wrClr0 v) s) ∧ LatchWriteDone 1 false v s (exec (.wrClr1 v) s)

/-- SET and CLR of the same pin: the later write wins (R115). -/
def Obligations.LaterLatchWriteWins : Prop :=
  ∀ (s s1 s2 : State) (v w : Word) (p : Pin), v.getLsbD (p.val % 32) = true → w.getLsbD (p.val % 32) = true →
    (p.val < 32 →
      (exec (.wrSet0 v) s = .next s1 → exec (.wrClr0 w) s1 = .next s2 → s2.rf.latch[p] = false) ∧
      (exec (.wrClr0 v) s = .next s1 → exec (.wrSet0 w) s1 = .next s2 → s2.rf.latch[p] = true)) ∧
    (32 ≤ p.val →
      (exec (.wrSet1 v) s = .next s1 → exec (.wrClr1 w) s1 = .next s2 → s2.rf.latch[p] = false) ∧
      (exec (.wrClr1 v) s = .next s1 → exec (.wrSet1 w) s1 = .next s2 → s2.rf.latch[p] = true))

/-- RD LEVn, with its keys (R109). -/
def Obligations.LevReads : Prop :=
  (∀ d : Word, decodeBus (0#1 ++ 13#10 ++ d) = .rdLev0 ∧ decodeBus (0#1 ++ 14#10 ++ d) = .rdLev1) ∧
  ∀ s : State, LevReadDone 0 s (exec .rdLev0 s) ∧ LevReadDone 1 s (exec .rdLev1 s)

/-- Every bit of a read that the register file does not determine is a draw: the reserved bits of FSEL and PUD are those of
the next numbered draw (R102, R111), and every bit of LEV that is no output pin's is the environment's level at this read
(R30, R109). That the draws are opaque constants numbered by `draws`, and the levels a list of the state, is the model's
choice (log entries 5 and 6). -/
def Obligations.ReadsTakeTheirDraws : Prop :=
  ∀ s : State,
    (FselReadSamples 0 s (exec .rdFsel0 s) ∧ FselReadSamples 1 s (exec .rdFsel1 s) ∧
      FselReadSamples 2 s (exec .rdFsel2 s) ∧ FselReadSamples 3 s (exec .rdFsel3 s) ∧
      FselReadSamples 4 s (exec .rdFsel4 s) ∧ FselReadSamples 5 s (exec .rdFsel5 s)) ∧
    (LevReadSamples 0 s (exec .rdLev0 s) ∧ LevReadSamples 1 s (exec .rdLev1 s)) ∧
    ∃ t, exec .rdPud s = .next t ∧ t.draws = s.draws + 1 ∧
      t.rdata.extractLsb' 2 30 = (Config.freePud s.draws).extractLsb' 2 30

/-- RD PUD, with its key (R111): the low two bits are the staging value, and no state is written. -/
def Obligations.PudRead : Prop :=
  (∀ d : Word, decodeBus (0#1 ++ 37#10 ++ d) = .rdPud) ∧
  ∀ s : State, ∃ t, exec .rdPud s = .next t ∧ OnlyAnswered s t ∧ t.levels = s.levels ∧
    t.rdata.extractLsb' 0 2 = s.rf.pud

/-- WR PUD, with its key (R112, R162). -/
def Obligations.PudWrite : Prop :=
  ∀ (s : State) (v : Word), decodeBus (1#1 ++ 37#10 ++ v) = .wrPud v ∧ PudWriteDone v s (exec (.wrPud v) s)

/-- WR PUDCLKn, with its keys (R114, R161). -/
def Obligations.PudclkWrites : Prop :=
  ∀ (s : State) (v : Word), decodeBus (1#1 ++ 38#10 ++ v) = .wrPudclk0 v ∧
    decodeBus (1#1 ++ 39#10 ++ v) = .wrPudclk1 v ∧ PudclkWriteDone 0 v s (exec (.wrPudclk0 v) s) ∧
    PudclkWriteDone 1 v s (exec (.wrPudclk1 v) s)

/-- The idempotent writes (R57): SETn and CLRn always, PUD when no clock is asserted. -/
def Obligations.IdempotentWrites : Prop :=
  ∀ (s t : State) (v : Word),
    (∀ i ∈ [Instr.wrSet0 v, .wrSet1 v, .wrClr0 v, .wrClr1 v], exec i s = .next t → exec i t = .next t) ∧
    (s.rf.NoStrobe → exec (.wrPud v) s = .next t → exec (.wrPud v) t = .next t)

/-- The refused transactions, with their keys: reads of SET, CLR and PUDCLK (R106, R108, R113), writes of LEV (R110),
unlisted words (R119). -/
def Obligations.RefusedTransactions : Prop :=
  ∀ (s : State) (v : Word) (i : BitVec 10),
    (decodeBus (0#1 ++ 7#10 ++ v) = .rdSet0 ∧ decodeBus (0#1 ++ 8#10 ++ v) = .rdSet1 ∧
      decodeBus (0#1 ++ 10#10 ++ v) = .rdClr0 ∧ decodeBus (0#1 ++ 11#10 ++ v) = .rdClr1 ∧
      decodeBus (0#1 ++ 38#10 ++ v) = .rdPudclk0 ∧ decodeBus (0#1 ++ 39#10 ++ v) = .rdPudclk1 ∧
      decodeBus (1#1 ++ 13#10 ++ v) = .wrLev0 v ∧ decodeBus (1#1 ++ 14#10 ++ v) = .wrLev1 v) ∧
    (listedWord i.toNat = false →
      decodeBus (0#1 ++ i ++ v) = .rdUnlisted i ∧ decodeBus (1#1 ++ i ++ v) = .wrUnlisted i v) ∧
    (∀ j ∈ [Instr.rdSet0, .rdSet1, .rdClr0, .rdClr1, .rdPudclk0, .rdPudclk1],
      exec j s = .refused (.readOfWriteOnly { s with refused := true })) ∧
    (∀ j ∈ [Instr.wrLev0 v, .wrLev1 v], exec j s = .refused (.writeToReadOnly { s with refused := true })) ∧
    ∀ j ∈ [Instr.rdUnlisted i, .wrUnlisted i v], exec j s = .refused (.unlistedRegister { s with refused := true })

/-! ## Whole-machine rules -/

/-- Every step keeps every controller's sequencing sound (R38, R37, R140). -/
def Obligations.StepKeepsSound : Prop :=
  ∀ s t : State, s.Sound → step s = .next t → t.Sound

/-- The intended use is safe (R148, R234, R45): with pins checked, one controller and no other bus master, every step
answers a next state, never a fault or a refusal, and the pull latch stays exactly where the program in flight has brought
it, so that the sequencer is idle whenever the controller is. -/
def Obligations.CheckedSoleUseIsSafe : Prop :=
  ∀ s : State, s.SoloChecked → ∃ t, step s = .next t ∧ t.SoloChecked

/-- The reset state meets the invariants (R44, R45): its sequencing is sound for every value of the parameters, and with the
default parameters and any words waiting on its port it meets the premise of the sole checked use. -/
def Obligations.ResetMeetsInvariants : Prop :=
  (∀ (pc : PinCheck) (n : Nat), (State.resetWith pc n).Sound ∧ (State.resetWith pc n).rf.SeqIdle) ∧
    ∀ ws, State.SoloChecked { State.reset with ctrls := State.reset.ctrls.map fun k => { k with pending := ws } }

/-- The bound of R240. From every state of sound sequencing, whatever the parameters, the registers and the other
controllers: a command in flight has ended with a response within nine turns of its controller, or one of those turns is
refused (R206). However its turns are interleaved with those of other controllers, other bus masters, raw accesses and
resets: if a stretch of the schedule that holds nine of them runs through, the command has ended within it. In the sole
checked use it ends within nine steps, none of them refused. -/
def Obligations.CommandEndsWithinNineSteps : Prop :=
  (∀ (s : State) (c : Nat) (k : Ctrl) (rest : List Turn), s.Sound → s.refused = false → s.ctrls[c]? = some k →
    k.cmd ≠ none → s.sched = List.replicate 9 (.ctrl c) ++ rest →
    ∃ n, n ≤ 9 ∧ ((∃ t k', steps n s = .next t ∧ t.ctrls[c]? = some k' ∧ k'.cmd = none ∧ k'.rsp ≠ none) ∨
      ∃ r, steps n s = .refused r)) ∧
  (∀ (s t : State) (c : Nat) (k : Ctrl) (l rest : List Turn), s.ctrls[c]? = some k → k.cmd ≠ none →
    s.sched = l ++ rest → 9 ≤ l.count (.ctrl c) → steps l.length s = .next t →
    ∃ n u k', n ≤ l.length ∧ steps n s = .next u ∧ u.ctrls[c]? = some k' ∧ k'.cmd = none) ∧
  ∀ (s : State) (k : Ctrl), s.SoloChecked → s.sched = [] → s.ctrls = [k] → k.cmd ≠ none →
    ∃ n t k', n ≤ 9 ∧ steps n s = .next t ∧ t.ctrls = [k'] ∧ k'.cmd = none ∧ k'.rsp ≠ none

/-- No step changes the parameters (R42) or leaves the refusal mark set (R41): a step that refuses answers a refusal. -/
def Obligations.StepKeepsParameters : Prop :=
  ∀ s t : State, step s = .next t → t.pinCheck = s.pinCheck ∧ t.ctrls.length = s.ctrls.length ∧ t.refused = false

/-- An instruction changes no controller but the acting one, and neither the refusal mark, the parameter nor the schedule
(R213, R42). -/
def Obligations.InstructionsActOnOneController : Prop :=
  ∀ (i : Instr) (s t : State), exec i s = .next t → Quiet s t

/-- The pull states can be read by nothing (R33, R43): two states that differ in pull states only run every instruction
alike, to states that differ in pull states only. -/
def Obligations.PullStateIsUnobservable : Prop :=
  ∀ (i : Instr) (s s' : State), s.erasePull = s'.erasePull →
    match exec i s, exec i s' with
    | .next t, .next t' => t.erasePull = t'.erasePull
    | .fault f, .fault f' => f = f'
    | .refused _, .refused _ => True
    | _, _ => False

/-- Draws never reach the register file (R103, R112, R167: written-back reserved bits are ignored): what an instruction
makes of the register file does not depend on any draw it takes, of reserved bits, levels or outcomes. -/
def Obligations.DrawsNeverReachRegisterFile : Prop :=
  ∀ (i : Instr) (s t t' : State) (n : Nat) (os : List OpenOutcome) (ls : List (BitVec 64)),
    exec i s = .next t → exec i { s with draws := n, opens := os, levels := ls } = .next t' → t.rf = t'.rf

/-- The temporary is never observed between commands (R39): what a command makes of the state does not depend on the value
the acting controller's temporary had when the command was issued. -/
def Obligations.TemporaryNotObserved : Prop :=
  ∀ (i : Instr) (s t : State) (v : Word), isCommand i = true → exec i s = .next t →
    exec i (s.modifyActor fun k => k.setT v) = .next t

/-- The lost update (R61, R238): two open controllers, each at the last step of a SETUP of different pins of one select register
and each having read the same word; after both write, the first one's field is the one both had read. -/
def Obligations.LostUpdate : Prop :=
  ∀ (s : State) (k0 k1 : Ctrl) (p0 p1 : BitVec 32) (d0 d1 : PinDirection) (m0 m1 : PullMode) (rest : List Turn)
    (h0 : p0.toNat < 54) (h1 : p1.toNat < 54),
    s.refused = false → s.ctrls = [k0, k1] → s.sched = .ctrl 0 :: .ctrl 1 :: rest →
    k0.isOpen = true → k1.isOpen = true → k0.cmd = some (.setup p0 d0 m0) → k1.cmd = some (.setup p1 d1 m1) →
    k0.step = 8 → k1.step = 8 → k1.t = k0.t → p0.toNat / 10 = p1.toNat / 10 → p0 ≠ p1 →
    ∃ t, steps 2 s = .next t ∧ t.rf.fsel[p0.toNat] = fselField k0.t (p0.toNat % 10) ∧
      t.rf.fsel[p1.toNat] = dirCode d1
end

