-- ==== Sys2Proof/Laws/Encoding.lean ====
section
/-! SUPPORT. The fields of the encoder's words. -/

namespace Sys2Proof

/-- Bit `i` of a command word, by the field it falls in (R81). -/
theorem getLsbD_cmdWord (op : BitVec 4) (mode : BitVec 2) (dir lvl : BitVec 1) (pin : BitVec 32) (i : Nat) :
    (cmdWord op mode dir lvl pin).getLsbD i =
      if i < 32 then pin.getLsbD i else if i < 56 then false else if i < 57 then lvl.getLsbD (i - 56)
      else if i < 58 then dir.getLsbD (i - 57) else if i < 60 then mode.getLsbD (i - 58) else op.getLsbD (i - 60) := by
  show (op ++ mode ++ dir ++ lvl ++ 0#24 ++ pin : BitVec (4 + 2 + 1 + 1 + 24 + 32)).getLsbD i = _
  simp only [BitVec.getLsbD_append, BitVec.getLsbD_zero]
  repeat' split
  all_goals first | rfl | omega

/-- Bit `i` of a bus request, by the field it falls in (R90). -/
theorem getLsbD_busWord (we : BitVec 1) (k : BitVec 10) (v : BitVec 32) (i : Nat) :
    (busWord we k v).getLsbD i =
      if i < 32 then v.getLsbD i else if i < 42 then k.getLsbD (i - 32) else we.getLsbD (i - 42) := by
  show (we ++ k ++ v : BitVec (1 + 10 + 32)).getLsbD i = _
  simp only [BitVec.getLsbD_append]
  repeat' split
  all_goals first | rfl | omega

/-- A field is known by its bits. -/
theorem extractLsb'_eq_of_bits {n : Nat} (w : BitVec n) (s k : Nat) (v : BitVec k)
    (h : ∀ i, i < k → w.getLsbD (s + i) = v.getLsbD i) : w.extractLsb' s k = v := by
  apply BitVec.eq_of_getLsbD_eq
  intro i hi
  rw [BitVec.getLsbD_extractLsb', h i hi]
  simp [hi]

section
variable (op : BitVec 4) (mode : BitVec 2) (dir lvl : BitVec 1) (pin : BitVec 32)

@[simp] theorem cmdWord_op : (cmdWord op mode dir lvl pin).extractLsb' 60 4 = op := by
  apply extractLsb'_eq_of_bits
  intro i hi
  rw [getLsbD_cmdWord, if_neg (by omega), if_neg (by omega), if_neg (by omega), if_neg (by omega), if_neg (by omega)]
  congr 1; omega

@[simp] theorem cmdWord_mode : (cmdWord op mode dir lvl pin).extractLsb' 58 2 = mode := by
  apply extractLsb'_eq_of_bits
  intro i hi
  rw [getLsbD_cmdWord, if_neg (by omega), if_neg (by omega), if_neg (by omega), if_neg (by omega), if_pos (by omega)]
  congr 1; omega

@[simp] theorem cmdWord_dir : (cmdWord op mode dir lvl pin).extractLsb' 57 1 = dir := by
  apply extractLsb'_eq_of_bits
  intro i hi
  rw [getLsbD_cmdWord, if_neg (by omega), if_neg (by omega), if_neg (by omega), if_pos (by omega)]
  congr 1; omega

@[simp] theorem cmdWord_lvl : (cmdWord op mode dir lvl pin).extractLsb' 56 1 = lvl := by
  apply extractLsb'_eq_of_bits
  intro i hi
  rw [getLsbD_cmdWord, if_neg (by omega), if_neg (by omega), if_pos (by omega)]
  congr 1; omega

@[simp] theorem cmdWord_rsv : (cmdWord op mode dir lvl pin).extractLsb' 32 24 = 0#24 := by
  apply extractLsb'_eq_of_bits
  intro i hi
  rw [getLsbD_cmdWord, if_neg (by omega), if_pos (by omega), BitVec.getLsbD_zero]

@[simp] theorem cmdWord_pin : (cmdWord op mode dir lvl pin).extractLsb' 0 32 = pin := by
  apply extractLsb'_eq_of_bits
  intro i hi
  rw [getLsbD_cmdWord, if_pos (by omega)]
  congr 1; omega

variable (we : BitVec 1) (k : BitVec 10) (v : BitVec 32)

@[simp] theorem busWord_we : (busWord we k v).extractLsb' 42 1 = we := by
  apply extractLsb'_eq_of_bits
  intro i hi
  rw [getLsbD_busWord, if_neg (by omega), if_neg (by omega)]
  congr 1; omega

@[simp] theorem busWord_index : (busWord we k v).extractLsb' 32 10 = k := by
  apply extractLsb'_eq_of_bits
  intro i hi
  rw [getLsbD_busWord, if_neg (by omega), if_pos (by omega)]
  congr 1; omega

@[simp] theorem busWord_data : (busWord we k v).extractLsb' 0 32 = v := by
  apply extractLsb'_eq_of_bits
  intro i hi
  rw [getLsbD_busWord, if_pos (by omega)]
  congr 1; omega

end

end Sys2Proof
end

