-- ==== Sys2Proof/Laws/State.lean ====
section
/-! SUPPORT. What each update of the state does to each field: one lemma for each field of each update, all true by
unfolding, so that no later proof unfolds a record update. -/

namespace Sys2Proof.Machine

/-! ### RegFile.writeFsel -/

@[simp] theorem RegFile.writeFsel_fsel (rf : RegFile) (r : Nat) (v : Word) : (rf.writeFsel r v).fsel = pinTable fun p => if p.val / 10 = r then fselField v (p.val % 10) else rf.fsel[p] := rfl
@[simp] theorem RegFile.writeFsel_latch (rf : RegFile) (r : Nat) (v : Word) : (rf.writeFsel r v).latch = rf.latch := rfl
@[simp] theorem RegFile.writeFsel_pud (rf : RegFile) (r : Nat) (v : Word) : (rf.writeFsel r v).pud = rf.pud := rfl
@[simp] theorem RegFile.writeFsel_clk (rf : RegFile) (r : Nat) (v : Word) : (rf.writeFsel r v).clk = rf.clk := rfl
@[simp] theorem RegFile.writeFsel_pull (rf : RegFile) (r : Nat) (v : Word) : (rf.writeFsel r v).pull = rf.pull := rfl

/-! ### RegFile.writeLatches -/

@[simp] theorem RegFile.writeLatches_fsel (rf : RegFile) (n : Nat) (v : Word) (b : Bool) : (rf.writeLatches n v b).fsel = rf.fsel := rfl
@[simp] theorem RegFile.writeLatches_latch (rf : RegFile) (n : Nat) (v : Word) (b : Bool) : (rf.writeLatches n v b).latch = pinTable fun p => if p.val / 32 = n ∧ v.getLsbD (p.val % 32) then b else rf.latch[p] := rfl
@[simp] theorem RegFile.writeLatches_pud (rf : RegFile) (n : Nat) (v : Word) (b : Bool) : (rf.writeLatches n v b).pud = rf.pud := rfl
@[simp] theorem RegFile.writeLatches_clk (rf : RegFile) (n : Nat) (v : Word) (b : Bool) : (rf.writeLatches n v b).clk = rf.clk := rfl
@[simp] theorem RegFile.writeLatches_pull (rf : RegFile) (n : Nat) (v : Word) (b : Bool) : (rf.writeLatches n v b).pull = rf.pull := rfl

/-! ### RegFile.writePud -/

@[simp] theorem RegFile.writePud_fsel (rf : RegFile) (v : Word) : (rf.writePud v).fsel = rf.fsel := rfl
@[simp] theorem RegFile.writePud_latch (rf : RegFile) (v : Word) : (rf.writePud v).latch = rf.latch := rfl
@[simp] theorem RegFile.writePud_pud (rf : RegFile) (v : Word) : (rf.writePud v).pud = low2 v := rfl
@[simp] theorem RegFile.writePud_clk (rf : RegFile) (v : Word) : (rf.writePud v).clk = rf.clk := rfl
@[simp] theorem RegFile.writePud_pull (rf : RegFile) (v : Word) : (rf.writePud v).pull = pinTable fun p => if low2 v ≠ 0 ∧ rf.clk[p] then .indeterminate else rf.pull[p] := rfl

/-! ### RegFile.writePudclk -/

@[simp] theorem RegFile.writePudclk_fsel (rf : RegFile) (n : Nat) (v : Word) : (rf.writePudclk n v).fsel = rf.fsel := rfl
@[simp] theorem RegFile.writePudclk_latch (rf : RegFile) (n : Nat) (v : Word) : (rf.writePudclk n v).latch = rf.latch := rfl
@[simp] theorem RegFile.writePudclk_pud (rf : RegFile) (n : Nat) (v : Word) : (rf.writePudclk n v).pud = rf.pud := rfl
@[simp] theorem RegFile.writePudclk_clk (rf : RegFile) (n : Nat) (v : Word) : (rf.writePudclk n v).clk = pinTable fun p => if p.val / 32 = n then v.getLsbD (p.val % 32) else rf.clk[p] := rfl
@[simp] theorem RegFile.writePudclk_pull (rf : RegFile) (n : Nat) (v : Word) : (rf.writePudclk n v).pull = pinTable fun p =>
      if p.val / 32 = n ∧ v.getLsbD (p.val % 32) then strobe (clkbank rf n) rf.pud else rf.pull[p] := rfl

/-! ### Ctrl.setT -/

@[simp] theorem Ctrl.setT_isOpen (k : Ctrl) (v : Word) : (k.setT v).isOpen = k.isOpen := rfl
@[simp] theorem Ctrl.setT_cmd (k : Ctrl) (v : Word) : (k.setT v).cmd = k.cmd := rfl
@[simp] theorem Ctrl.setT_step (k : Ctrl) (v : Word) : (k.setT v).step = k.step := rfl
@[simp] theorem Ctrl.setT_t (k : Ctrl) (v : Word) : (k.setT v).t = v := rfl
@[simp] theorem Ctrl.setT_rsp (k : Ctrl) (v : Word) : (k.setT v).rsp = k.rsp := rfl
@[simp] theorem Ctrl.setT_pending (k : Ctrl) (v : Word) : (k.setT v).pending = k.pending := rfl

/-! ### Ctrl.setOpen -/

@[simp] theorem Ctrl.setOpen_isOpen (k : Ctrl) (b : Bool) : (k.setOpen b).isOpen = b := rfl
@[simp] theorem Ctrl.setOpen_cmd (k : Ctrl) (b : Bool) : (k.setOpen b).cmd = k.cmd := rfl
@[simp] theorem Ctrl.setOpen_step (k : Ctrl) (b : Bool) : (k.setOpen b).step = k.step := rfl
@[simp] theorem Ctrl.setOpen_t (k : Ctrl) (b : Bool) : (k.setOpen b).t = k.t := rfl
@[simp] theorem Ctrl.setOpen_rsp (k : Ctrl) (b : Bool) : (k.setOpen b).rsp = k.rsp := rfl
@[simp] theorem Ctrl.setOpen_pending (k : Ctrl) (b : Bool) : (k.setOpen b).pending = k.pending := rfl

/-! ### Ctrl.advance -/

@[simp] theorem Ctrl.advance_isOpen (k : Ctrl) : (k.advance).isOpen = k.isOpen := rfl
@[simp] theorem Ctrl.advance_cmd (k : Ctrl) : (k.advance).cmd = k.cmd := rfl
@[simp] theorem Ctrl.advance_step (k : Ctrl) : (k.advance).step = k.step + 1 := rfl
@[simp] theorem Ctrl.advance_t (k : Ctrl) : (k.advance).t = k.t := rfl
@[simp] theorem Ctrl.advance_rsp (k : Ctrl) : (k.advance).rsp = k.rsp := rfl
@[simp] theorem Ctrl.advance_pending (k : Ctrl) : (k.advance).pending = k.pending := rfl

/-! ### Ctrl.accept -/

@[simp] theorem Ctrl.accept_isOpen (k : Ctrl) (c : Command) : (k.accept c).isOpen = k.isOpen := rfl
@[simp] theorem Ctrl.accept_cmd (k : Ctrl) (c : Command) : (k.accept c).cmd = some c := rfl
@[simp] theorem Ctrl.accept_step (k : Ctrl) (c : Command) : (k.accept c).step = 0 := rfl
@[simp] theorem Ctrl.accept_t (k : Ctrl) (c : Command) : (k.accept c).t = k.t := rfl
@[simp] theorem Ctrl.accept_rsp (k : Ctrl) (c : Command) : (k.accept c).rsp = none := rfl
@[simp] theorem Ctrl.accept_pending (k : Ctrl) (c : Command) : (k.accept c).pending = k.pending := rfl

/-! ### Ctrl.finish -/

@[simp] theorem Ctrl.finish_isOpen (k : Ctrl) (w v : Word) : (k.finish w v).isOpen = k.isOpen := rfl
@[simp] theorem Ctrl.finish_cmd (k : Ctrl) (w v : Word) : (k.finish w v).cmd = none := rfl
@[simp] theorem Ctrl.finish_step (k : Ctrl) (w v : Word) : (k.finish w v).step = 0 := rfl
@[simp] theorem Ctrl.finish_t (k : Ctrl) (w v : Word) : (k.finish w v).t = v := rfl
@[simp] theorem Ctrl.finish_rsp (k : Ctrl) (w v : Word) : (k.finish w v).rsp = some w := rfl
@[simp] theorem Ctrl.finish_pending (k : Ctrl) (w v : Word) : (k.finish w v).pending = k.pending := rfl

/-! ### Ctrl.reject -/

@[simp] theorem Ctrl.reject_isOpen (k : Ctrl) (w : Word) : (k.reject w).isOpen = k.isOpen := rfl
@[simp] theorem Ctrl.reject_cmd (k : Ctrl) (w : Word) : (k.reject w).cmd = k.cmd := rfl
@[simp] theorem Ctrl.reject_step (k : Ctrl) (w : Word) : (k.reject w).step = k.step := rfl
@[simp] theorem Ctrl.reject_t (k : Ctrl) (w : Word) : (k.reject w).t = k.t := rfl
@[simp] theorem Ctrl.reject_rsp (k : Ctrl) (w : Word) : (k.reject w).rsp = some w := rfl
@[simp] theorem Ctrl.reject_pending (k : Ctrl) (w : Word) : (k.reject w).pending = k.pending := rfl

/-! ### State.markRefused -/

@[simp] theorem State.markRefused_rf (s : State) : (s.markRefused).rf = s.rf := rfl
@[simp] theorem State.markRefused_ctrls (s : State) : (s.markRefused).ctrls = s.ctrls := rfl
@[simp] theorem State.markRefused_refused (s : State) : (s.markRefused).refused = true := rfl
@[simp] theorem State.markRefused_pinCheck (s : State) : (s.markRefused).pinCheck = s.pinCheck := rfl
@[simp] theorem State.markRefused_cur (s : State) : (s.markRefused).cur = s.cur := rfl
@[simp] theorem State.markRefused_rdata (s : State) : (s.markRefused).rdata = s.rdata := rfl
@[simp] theorem State.markRefused_draws (s : State) : (s.markRefused).draws = s.draws := rfl
@[simp] theorem State.markRefused_opens (s : State) : (s.markRefused).opens = s.opens := rfl
@[simp] theorem State.markRefused_levels (s : State) : (s.markRefused).levels = s.levels := rfl
@[simp] theorem State.markRefused_sched (s : State) : (s.markRefused).sched = s.sched := rfl

/-! ### State.draw -/

@[simp] theorem State.draw_rf (s : State) : (s.draw).rf = s.rf := rfl
@[simp] theorem State.draw_ctrls (s : State) : (s.draw).ctrls = s.ctrls := rfl
@[simp] theorem State.draw_refused (s : State) : (s.draw).refused = s.refused := rfl
@[simp] theorem State.draw_pinCheck (s : State) : (s.draw).pinCheck = s.pinCheck := rfl
@[simp] theorem State.draw_cur (s : State) : (s.draw).cur = s.cur := rfl
@[simp] theorem State.draw_rdata (s : State) : (s.draw).rdata = s.rdata := rfl
@[simp] theorem State.draw_draws (s : State) : (s.draw).draws = s.draws + 1 := rfl
@[simp] theorem State.draw_opens (s : State) : (s.draw).opens = s.opens := rfl
@[simp] theorem State.draw_levels (s : State) : (s.draw).levels = s.levels := rfl
@[simp] theorem State.draw_sched (s : State) : (s.draw).sched = s.sched := rfl

/-! ### State.dropLevels -/

@[simp] theorem State.dropLevels_rf (s : State) : (s.dropLevels).rf = s.rf := rfl
@[simp] theorem State.dropLevels_ctrls (s : State) : (s.dropLevels).ctrls = s.ctrls := rfl
@[simp] theorem State.dropLevels_refused (s : State) : (s.dropLevels).refused = s.refused := rfl
@[simp] theorem State.dropLevels_pinCheck (s : State) : (s.dropLevels).pinCheck = s.pinCheck := rfl
@[simp] theorem State.dropLevels_cur (s : State) : (s.dropLevels).cur = s.cur := rfl
@[simp] theorem State.dropLevels_rdata (s : State) : (s.dropLevels).rdata = s.rdata := rfl
@[simp] theorem State.dropLevels_draws (s : State) : (s.dropLevels).draws = s.draws + 1 := rfl
@[simp] theorem State.dropLevels_opens (s : State) : (s.dropLevels).opens = s.opens := rfl
@[simp] theorem State.dropLevels_levels (s : State) : (s.dropLevels).levels = s.levels.tail := rfl
@[simp] theorem State.dropLevels_sched (s : State) : (s.dropLevels).sched = s.sched := rfl

/-! ### State.dropOpen -/

@[simp] theorem State.dropOpen_rf (s : State) : (s.dropOpen).rf = s.rf := rfl
@[simp] theorem State.dropOpen_ctrls (s : State) : (s.dropOpen).ctrls = s.ctrls := rfl
@[simp] theorem State.dropOpen_refused (s : State) : (s.dropOpen).refused = s.refused := rfl
@[simp] theorem State.dropOpen_pinCheck (s : State) : (s.dropOpen).pinCheck = s.pinCheck := rfl
@[simp] theorem State.dropOpen_cur (s : State) : (s.dropOpen).cur = s.cur := rfl
@[simp] theorem State.dropOpen_rdata (s : State) : (s.dropOpen).rdata = s.rdata := rfl
@[simp] theorem State.dropOpen_draws (s : State) : (s.dropOpen).draws = s.draws + 1 := rfl
@[simp] theorem State.dropOpen_opens (s : State) : (s.dropOpen).opens = s.opens.tail := rfl
@[simp] theorem State.dropOpen_levels (s : State) : (s.dropOpen).levels = s.levels := rfl
@[simp] theorem State.dropOpen_sched (s : State) : (s.dropOpen).sched = s.sched := rfl

/-! ### State.answer -/

@[simp] theorem State.answer_rf (s : State) (v : Word) : (s.answer v).rf = s.rf := rfl
@[simp] theorem State.answer_ctrls (s : State) (v : Word) : (s.answer v).ctrls = s.ctrls := rfl
@[simp] theorem State.answer_refused (s : State) (v : Word) : (s.answer v).refused = s.refused := rfl
@[simp] theorem State.answer_pinCheck (s : State) (v : Word) : (s.answer v).pinCheck = s.pinCheck := rfl
@[simp] theorem State.answer_cur (s : State) (v : Word) : (s.answer v).cur = s.cur := rfl
@[simp] theorem State.answer_rdata (s : State) (v : Word) : (s.answer v).rdata = v := rfl
@[simp] theorem State.answer_draws (s : State) (v : Word) : (s.answer v).draws = s.draws := rfl
@[simp] theorem State.answer_opens (s : State) (v : Word) : (s.answer v).opens = s.opens := rfl
@[simp] theorem State.answer_levels (s : State) (v : Word) : (s.answer v).levels = s.levels := rfl
@[simp] theorem State.answer_sched (s : State) (v : Word) : (s.answer v).sched = s.sched := rfl

/-! ### State.withRf -/

@[simp] theorem State.withRf_rf (s : State) (rf : RegFile) : (s.withRf rf).rf = rf := rfl
@[simp] theorem State.withRf_ctrls (s : State) (rf : RegFile) : (s.withRf rf).ctrls = s.ctrls := rfl
@[simp] theorem State.withRf_refused (s : State) (rf : RegFile) : (s.withRf rf).refused = s.refused := rfl
@[simp] theorem State.withRf_pinCheck (s : State) (rf : RegFile) : (s.withRf rf).pinCheck = s.pinCheck := rfl
@[simp] theorem State.withRf_cur (s : State) (rf : RegFile) : (s.withRf rf).cur = s.cur := rfl
@[simp] theorem State.withRf_rdata (s : State) (rf : RegFile) : (s.withRf rf).rdata = s.rdata := rfl
@[simp] theorem State.withRf_draws (s : State) (rf : RegFile) : (s.withRf rf).draws = s.draws := rfl
@[simp] theorem State.withRf_opens (s : State) (rf : RegFile) : (s.withRf rf).opens = s.opens := rfl
@[simp] theorem State.withRf_levels (s : State) (rf : RegFile) : (s.withRf rf).levels = s.levels := rfl
@[simp] theorem State.withRf_sched (s : State) (rf : RegFile) : (s.withRf rf).sched = s.sched := rfl

/-! ### State.modifyActor -/

@[simp] theorem State.modifyActor_rf (s : State) (f : Ctrl → Ctrl) : (s.modifyActor f).rf = s.rf := rfl
@[simp] theorem State.modifyActor_ctrls (s : State) (f : Ctrl → Ctrl) : (s.modifyActor f).ctrls = s.ctrls.modify s.cur f := rfl
@[simp] theorem State.modifyActor_refused (s : State) (f : Ctrl → Ctrl) : (s.modifyActor f).refused = s.refused := rfl
@[simp] theorem State.modifyActor_pinCheck (s : State) (f : Ctrl → Ctrl) : (s.modifyActor f).pinCheck = s.pinCheck := rfl
@[simp] theorem State.modifyActor_cur (s : State) (f : Ctrl → Ctrl) : (s.modifyActor f).cur = s.cur := rfl
@[simp] theorem State.modifyActor_rdata (s : State) (f : Ctrl → Ctrl) : (s.modifyActor f).rdata = s.rdata := rfl
@[simp] theorem State.modifyActor_draws (s : State) (f : Ctrl → Ctrl) : (s.modifyActor f).draws = s.draws := rfl
@[simp] theorem State.modifyActor_opens (s : State) (f : Ctrl → Ctrl) : (s.modifyActor f).opens = s.opens := rfl
@[simp] theorem State.modifyActor_levels (s : State) (f : Ctrl → Ctrl) : (s.modifyActor f).levels = s.levels := rfl
@[simp] theorem State.modifyActor_sched (s : State) (f : Ctrl → Ctrl) : (s.modifyActor f).sched = s.sched := rfl

/-! ### State.withPending -/

@[simp] theorem State.withPending_rf (s : State) (ws : List (BitVec 64)) : (s.withPending ws).rf = s.rf := rfl
@[simp] theorem State.withPending_ctrls (s : State) (ws : List (BitVec 64)) : (s.withPending ws).ctrls = s.ctrls.modify s.cur fun k => { k with pending := ws } := rfl
@[simp] theorem State.withPending_refused (s : State) (ws : List (BitVec 64)) : (s.withPending ws).refused = s.refused := rfl
@[simp] theorem State.withPending_pinCheck (s : State) (ws : List (BitVec 64)) : (s.withPending ws).pinCheck = s.pinCheck := rfl
@[simp] theorem State.withPending_cur (s : State) (ws : List (BitVec 64)) : (s.withPending ws).cur = s.cur := rfl
@[simp] theorem State.withPending_rdata (s : State) (ws : List (BitVec 64)) : (s.withPending ws).rdata = s.rdata := rfl
@[simp] theorem State.withPending_draws (s : State) (ws : List (BitVec 64)) : (s.withPending ws).draws = s.draws := rfl
@[simp] theorem State.withPending_opens (s : State) (ws : List (BitVec 64)) : (s.withPending ws).opens = s.opens := rfl
@[simp] theorem State.withPending_levels (s : State) (ws : List (BitVec 64)) : (s.withPending ws).levels = s.levels := rfl
@[simp] theorem State.withPending_sched (s : State) (ws : List (BitVec 64)) : (s.withPending ws).sched = s.sched := rfl

/-! ### endCommand -/

@[simp] theorem endCommand_rf (st : Status) (level : Bool) (s : State) :
    (endCommand st level s).rf = s.rf := rfl
@[simp] theorem endCommand_ctrls (st : Status) (level : Bool) (s : State) :
    (endCommand st level s).ctrls = s.ctrls.modify s.cur fun k => k.finish (rspWord st level) (Config.freeTemp s.draws s.cur) := rfl
@[simp] theorem endCommand_refused (st : Status) (level : Bool) (s : State) :
    (endCommand st level s).refused = s.refused := rfl
@[simp] theorem endCommand_pinCheck (st : Status) (level : Bool) (s : State) :
    (endCommand st level s).pinCheck = s.pinCheck := rfl
@[simp] theorem endCommand_cur (st : Status) (level : Bool) (s : State) :
    (endCommand st level s).cur = s.cur := rfl
@[simp] theorem endCommand_rdata (st : Status) (level : Bool) (s : State) :
    (endCommand st level s).rdata = s.rdata := rfl
@[simp] theorem endCommand_draws (st : Status) (level : Bool) (s : State) :
    (endCommand st level s).draws = s.draws + 1 := rfl
@[simp] theorem endCommand_opens (st : Status) (level : Bool) (s : State) :
    (endCommand st level s).opens = s.opens := rfl
@[simp] theorem endCommand_levels (st : Status) (level : Bool) (s : State) :
    (endCommand st level s).levels = s.levels := rfl
@[simp] theorem endCommand_sched (st : Status) (level : Bool) (s : State) :
    (endCommand st level s).sched = s.sched := rfl

/-! ### The acting controller after an update -/

@[simp] theorem State.markRefused_actor (s : State) : (s.markRefused).actor? = s.actor? := rfl
@[simp] theorem State.draw_actor (s : State) : (s.draw).actor? = s.actor? := rfl
@[simp] theorem State.dropLevels_actor (s : State) : (s.dropLevels).actor? = s.actor? := rfl
@[simp] theorem State.dropOpen_actor (s : State) : (s.dropOpen).actor? = s.actor? := rfl
@[simp] theorem State.answer_actor (s : State) (v : Word) : (s.answer v).actor? = s.actor? := rfl
@[simp] theorem State.withRf_actor (s : State) (rf : RegFile) : (s.withRf rf).actor? = s.actor? := rfl

@[simp] theorem State.modifyActor_actor (s : State) (f : Ctrl → Ctrl) : (s.modifyActor f).actor? = s.actor?.map f := by
  simp [State.actor?]

@[simp] theorem State.withPending_actor (s : State) (ws : List (BitVec 64)) :
    (s.withPending ws).actor? = s.actor?.map fun k => { k with pending := ws } := by
  simp [State.withPending]

@[simp] theorem endCommand_actor (st : Status) (level : Bool) (s : State) :
    (endCommand st level s).actor? =
      s.actor?.map fun k => k.finish (rspWord st level) (Config.freeTemp s.draws s.cur) := by
  simp [endCommand]

/-- A controller other than the acting one does not change when the acting one does. -/
theorem State.modifyActor_other (s : State) (f : Ctrl → Ctrl) (c : Nat) (h : c ≠ s.cur) :
    (s.modifyActor f).ctrls[c]? = s.ctrls[c]? := by
  simp [Ne.symm h]

/-- Changing the acting controller keeps the number of controllers. -/
theorem State.modifyActor_length (s : State) (f : Ctrl → Ctrl) : (s.modifyActor f).ctrls.length = s.ctrls.length := by
  simp

/-- Two changes of the acting controller are one. -/
@[simp] theorem State.modifyActor_modifyActor (s : State) (f g : Ctrl → Ctrl) :
    (s.modifyActor f).modifyActor g = s.modifyActor (fun k => g (f k)) := by
  simp only [State.modifyActor, State.mk.injEq, true_and, and_true]
  apply List.ext_getElem? ; intro i
  simp only [List.getElem?_modify]
  cases s.ctrls[i]? <;> by_cases h : s.cur = i <;> simp [h]

end Sys2Proof.Machine
end

