-- ==== Sys2Proof/Laws/Ops.lean ====
section
/-! SUPPORT. One lemma for each shared operation that says what it can do. -/

namespace Sys2Proof.Machine

/-! ## Words and bits -/

/-- Bit `i` of a word made from its bits. -/
@[simp] theorem getLsbD_ofBits (n : Nat) (f : Nat → Bool) (i : Nat) :
    (ofBits n f).getLsbD i = (decide (i < n) && f i) := by
  induction n with
  | zero => simp [ofBits]
  | succ n ih =>
    rw [ofBits, BitVec.getLsbD_cons, ih]
    by_cases h : i = n
    · simp [h]
    · have : (i < n + 1) ↔ i < n := by omega
      simp [h, this]

/-- The one-hot word has exactly the pin's bit (R13). -/
theorem getLsbD_onehot (p b : Nat) : (onehot p).getLsbD b = decide (b = p % 32) := by
  simp only [onehot, bitOf, BitVec.getLsbD_shiftLeft]
  by_cases h : b = p % 32
  · have : p % 32 < 32 := Nat.mod_lt _ (by decide)
    simp [h, this]
  · simp only [h, decide_false]
    rw [BitVec.getLsbD_one]
    rcases Nat.lt_or_ge b (p % 32) with h' | h'
    · simp [h']
    · have : ¬ (b - p % 32 = 0) := by omega
      simp [this]

/-- The one-hot word is not the zero word (R181: the word written is never 0). -/
theorem onehot_ne_zero (p : Nat) : onehot p ≠ 0#32 := by
  intro h
  have := getLsbD_onehot p (p % 32)
  simp [h] at this

/-- The one-hot word of a valid pin has no reserved bit (R148). -/
theorem reservedBank1_onehot (p : Nat) (hp : p < 54) (hb : p / 32 = 1) : reservedBank1 (onehot p) = 0 := by
  apply BitVec.eq_of_getLsbD_eq
  intro i hi
  have : ¬ (22 + i = p % 32) := by omega
  simp [reservedBank1, getLsbD_onehot, this]

/-- Entry `i` of the entries from `k` on is that of pin `k + i`. -/
theorem pinEntries_get {α : Type} (f : Pin → α) (n k : Nat) (h : n + k = 54) (i : Nat) (hi : i < n) :
    (pinEntries f n k h)[i]'(by rw [pinEntries_length]; exact hi) = f ⟨k + i, by omega⟩ := by
  induction n generalizing k i with
  | zero => omega
  | succ n ih =>
    cases i with
    | zero => rfl
    | succ i =>
      simp only [pinEntries, List.getElem_cons_succ]
      rw [ih (k + 1) (by omega) i (by omega)]
      simp only [Nat.add_assoc, Nat.add_comm 1 i]

/-- An entry of a pin table. -/
@[simp] theorem pinTable_get {α : Type} (f : Pin → α) (p : Nat) (h : p < 54) : (pinTable f)[p] = f ⟨p, h⟩ := by
  have := pinEntries_get f 54 0 rfl p h
  simpa [pinTable] using this

/-- An entry of a pin table, by a pin. -/
@[simp] theorem pinTable_pin {α : Type} (f : Pin → α) (p : Pin) : (pinTable f)[p] = f p := by
  exact pinTable_get f p.val p.isLt

/-- Bit `b` of a clock bank (R32). -/
theorem getLsbD_clkbank (rf : RegFile) (p : Pin) : (clkbank rf (p.val / 32)).getLsbD (p.val % 32) = rf.clk[p] := by
  have h : 32 * (p.val / 32) + p.val % 32 = p.val := Nat.div_add_mod _ _
  simp only [clkbank, getLsbD_ofBits, h]
  have : p.val % 32 < 32 := Nat.mod_lt _ (by decide)
  simp [this]

/-- A bank without an asserted clock reads 0 (R160). -/
theorem clkbank_eq_zero (rf : RegFile) (n : Nat) (h : ∀ p : Pin, p.val / 32 = n → rf.clk[p] = false) :
    clkbank rf n = 0 := by
  apply BitVec.eq_of_getLsbD_eq
  intro b hb
  simp only [clkbank, getLsbD_ofBits, BitVec.ofNat_eq_ofNat, BitVec.getLsbD_zero, Bool.and_eq_false_iff]
  right
  split
  · rename_i hp
    exact h ⟨32 * n + b, hp⟩ (by simp; omega)
  · rfl

/-- A bank with an asserted clock does not read 0 (R160). -/
theorem clkbank_ne_zero (rf : RegFile) (p : Pin) (h : rf.clk[p] = true) : clkbank rf (p.val / 32) ≠ 0 := by
  intro h0
  have := getLsbD_clkbank rf p
  simp [h0, h] at this

/-- A field of a function-select register view (R102). -/
theorem fselField_fselWord (rf : RegFile) (free : Word) (p : Pin) :
    fselField (fselWord rf (p.val / 10) free) (p.val % 10) = rf.fsel[p] := by
  apply BitVec.eq_of_getLsbD_eq
  intro i hi
  have e1 : (3 * (p.val % 10) + i) / 3 = p.val % 10 := by omega
  have e2 : (3 * (p.val % 10) + i) % 3 = i := by omega
  have e3 : 10 * (p.val / 10) + p.val % 10 = p.val := Nat.div_add_mod _ _
  have e4 : 3 * (p.val % 10) + i < 30 := by omega
  have e5 : 3 * (p.val % 10) + i < 32 := by omega
  have hp := p.isLt
  simp only [fselField, BitVec.getLsbD_extractLsb', fselWord, getLsbD_ofBits, e1, e2, e3]
  simp [e4, e5, hi]

/-- The two low bits of a pull-control register view (R111). -/
@[simp] theorem low2_pudWord (rf : RegFile) (free : Word) : low2 (pudWord rf free) = rf.pud := by
  apply BitVec.eq_of_getLsbD_eq
  intro i hi
  simp only [low2, pudWord, BitVec.getLsbD_extractLsb', BitVec.getLsbD_append]
  simp [hi]

/-- Staging a mode over a cleared word leaves the mode's code in the low bits (R165, step 2). -/
@[simp] theorem low2_stage (t : Word) (m : PullMode) : low2 (clearLow2 t ||| pullWord m) = pullCode m := by
  apply BitVec.eq_of_getLsbD_eq
  intro i hi
  have : i = 0 ∨ i = 1 := by omega
  rcases this with rfl | rfl <;> cases m <;> simp [low2, clearLow2, pullWord, pullCode]

/-- Clearing leaves code 0 (R165, step 5). -/
@[simp] theorem low2_clear (t : Word) : low2 (clearLow2 t) = 0 := by
  apply BitVec.eq_of_getLsbD_eq
  intro i hi
  have : i = 0 ∨ i = 1 := by omega
  rcases this with rfl | rfl <;> simp [low2, clearLow2]

/-! ## Control -/

@[simp] theorem andThen_next {α β : Type} (a : α) (f : α → Host.Outcome β Fault Refusal) :
    andThen (.next a) f = f a := rfl

@[simp] theorem andThen_fault {α β : Type} (r : Fault) (f : α → Host.Outcome β Fault Refusal) :
    andThen (.fault r) f = .fault r := rfl

@[simp] theorem andThen_refused {α β : Type} (r : Refusal) (f : α → Host.Outcome β Fault Refusal) :
    andThen (.refused r) f = .refused r := rfl

/-- If a sequence answers a next state, both its parts did. -/
theorem andThen_eq_next {α β : Type} {o : Host.Outcome α Fault Refusal} {f : α → Host.Outcome β Fault Refusal} {b : β}
    (h : andThen o f = .next b) : ∃ a, o = .next a ∧ f a = .next b := by
  cases o with
  | next a => exact ⟨a, rfl, h⟩
  | fault r => cases h
  | refused r => cases h

/-- With an acting controller, `withActor` goes on with it. -/
theorem withActor_some {α : Type} {s : State} {k : Ctrl} (h : s.actor? = some k)
    (f : Ctrl → Host.Outcome α Fault Refusal) : withActor s f = f k := by
  simp [withActor, h]

/-- If `withActor` answers a next state, there is an acting controller. -/
theorem withActor_eq_next {α : Type} {s : State} {f : Ctrl → Host.Outcome α Fault Refusal} {a : α}
    (h : withActor s f = .next a) : ∃ k, s.actor? = some k ∧ f k = .next a := by
  unfold withActor at h
  split at h
  · cases h
  · rename_i k hk
    exact ⟨k, hk, h⟩

/-! ## Bus transactions -/

/-- All a bus read can do when it answers: the datum, one draw, and perhaps one entry of the pad levels used. -/
theorem busRead_cases {i : Nat} {s s' : State} (h : busRead i s = .next s') :
    (i ≤ 5 ∧ s' = readFsel i s) ∨ ((i = 13 ∨ i = 14) ∧ s' = readLev (i - 13) s) ∨ (i = 37 ∧ s' = readPud s) := by
  unfold busRead at h
  split at h
  · rename_i hi; cases h; exact .inl ⟨hi, rfl⟩
  · split at h
    · cases h
    · split at h
      · cases h
      · split at h
        · rename_i hi; cases h; exact .inr (.inl ⟨hi, rfl⟩)
        · split at h
          · rename_i hi; cases h; exact .inr (.inr ⟨hi, rfl⟩)
          · split at h <;> cases h

/-- A bus read changes no register-file state (R57). -/
theorem busRead_rf {i : Nat} {s s' : State} (h : busRead i s = .next s') : s'.rf = s.rf := by
  rcases busRead_cases h with ⟨-, rfl⟩ | ⟨-, rfl⟩ | ⟨-, rfl⟩ <;> rfl

/-- What a bus read leaves alone beside the register file. -/
theorem busRead_frame {i : Nat} {s s' : State} (h : busRead i s = .next s') :
    s'.ctrls = s.ctrls ∧ s'.refused = s.refused ∧ s'.pinCheck = s.pinCheck ∧ s'.cur = s.cur ∧ s'.opens = s.opens ∧
      s'.sched = s.sched := by
  rcases busRead_cases h with ⟨-, rfl⟩ | ⟨-, rfl⟩ | ⟨-, rfl⟩ <;> exact ⟨rfl, rfl, rfl, rfl, rfl, rfl⟩

/-- All a write of SETn or CLRn can do when it answers. -/
theorem writeLatches_cases {n : Nat} {v : Word} {b : Bool} {s s' : State} (h : writeLatches n v b s = .next s') :
    v ≠ 0 ∧ ¬ (n = 1 ∧ reservedBank1 v ≠ 0) ∧ s' = s.withRf (s.rf.writeLatches n v b) := by
  unfold writeLatches at h
  split at h
  · cases h
  · split at h
    · cases h
    · rename_i h1 h2
      cases h
      exact ⟨h1, h2, rfl⟩

/-- All a write of PUDCLKn can do when it answers. -/
theorem writePudclk_cases {n : Nat} {v : Word} {s s' : State} (h : writePudclk n v s = .next s') :
    ¬ (n = 1 ∧ reservedBank1 v ≠ 0) ∧ s' = s.withRf (s.rf.writePudclk n v) := by
  unfold writePudclk at h
  split at h
  · cases h
  · rename_i h1
    cases h
    exact ⟨h1, rfl⟩

/-- All a bus write can do when it answers: one write of the register-file state (R91). -/
theorem busWrite_cases {i : Nat} {v : Word} {s s' : State} (h : busWrite i v s = .next s') :
    (i ≤ 5 ∧ s' = s.withRf (s.rf.writeFsel i v)) ∨
    ((i = 7 ∨ i = 8) ∧ s' = s.withRf (s.rf.writeLatches (i - 7) v true)) ∨
    ((i = 10 ∨ i = 11) ∧ s' = s.withRf (s.rf.writeLatches (i - 10) v false)) ∨
    (i = 37 ∧ s' = s.withRf (s.rf.writePud v)) ∨
    ((i = 38 ∨ i = 39) ∧ s' = s.withRf (s.rf.writePudclk (i - 38) v)) := by
  unfold busWrite at h
  split at h
  · rename_i hi; cases h; exact .inl ⟨hi, rfl⟩
  · split at h
    · rename_i hi; exact .inr (.inl ⟨hi, (writeLatches_cases h).2.2⟩)
    · split at h
      · rename_i hi; exact .inr (.inr (.inl ⟨hi, (writeLatches_cases h).2.2⟩))
      · split at h
        · cases h
        · split at h
          · rename_i hi; cases h; exact .inr (.inr (.inr (.inl ⟨hi, rfl⟩)))
          · split at h
            · rename_i hi; exact .inr (.inr (.inr (.inr ⟨hi, (writePudclk_cases h).2⟩)))
            · cases h

/-- A bus write changes the register-file state and nothing else. -/
theorem busWrite_frame {i : Nat} {v : Word} {s s' : State} (h : busWrite i v s = .next s') :
    ∃ rf, s' = s.withRf rf := by
  rcases busWrite_cases h with ⟨-, rfl⟩ | ⟨-, rfl⟩ | ⟨-, rfl⟩ | ⟨-, rfl⟩ | ⟨-, rfl⟩ <;> exact ⟨_, rfl⟩

/-! ## Raw register access -/

/-- A raw access of an open controller in bounds reaches the bus (R51, R55). -/
theorem rawError_none {k : Ctrl} {i : Nat} (ho : k.isOpen = true) (hi : i < 1024) : rawError k i = none := by
  simp [rawError, ho, Nat.not_le.mpr hi]

/-- Only a raw access of an open controller in bounds reaches the bus (R51, R55). -/
theorem rawError_eq_none {k : Ctrl} {i : Nat} (h : rawError k i = none) : k.isOpen = true ∧ i < 1024 := by
  unfold rawError at h
  split at h
  · cases h
  · split at h
    · cases h
    · rename_i ho hi
      exact ⟨by simpa using ho, Nat.lt_of_not_le hi⟩

/-- A raw access of a closed controller is kept off the bus (R51). -/
@[simp] theorem rawError_closed {k : Ctrl} (h : k.isOpen = false) (i : Nat) : rawError k i = some .errNotOpen := by
  simp [rawError, h]

/-- A raw access of an open controller out of bounds is kept off the bus (R55). -/
theorem rawError_bounds {k : Ctrl} {i : Nat} (ho : k.isOpen = true) (hi : 1024 ≤ i) :
    rawError k i = some .errBounds := by
  simp [rawError, ho, hi]

/-- All a READ_REG can do when it answers (R146): the bus read of an open controller in bounds, or an error that leaves
the state as it was. -/
theorem readReg_cases {i : Nat} {s : State} {r : State × Option Status} (h : readReg i s = .next r) :
    ∃ k, s.actor? = some k ∧
      ((∃ s', rawError k i = none ∧ busRead i s = .next s' ∧ r = (s'.modifyActor (fun k => k.setT s'.rdata), none)) ∨
        ∃ e, rawError k i = some e ∧ r = (s, some e)) := by
  obtain ⟨k, hk, h⟩ := withActor_eq_next h
  refine ⟨k, hk, ?_⟩
  split at h
  · rename_i e he
    cases h
    exact .inr ⟨e, he, rfl⟩
  · rename_i he
    obtain ⟨s', h1, h2⟩ := andThen_eq_next h
    cases h2
    exact .inl ⟨s', he, h1, rfl⟩

/-- All a WRITE_REG can do when it answers (R147): the bus write of an open controller in bounds, or an error that leaves
the state as it was. -/
theorem writeReg_cases {i : Nat} {v : Word} {s : State} {r : State × Option Status} (h : writeReg i v s = .next r) :
    ∃ k, s.actor? = some k ∧
      ((∃ s', rawError k i = none ∧ busWrite i v s = .next s' ∧ r = (s', none)) ∨
        ∃ e, rawError k i = some e ∧ r = (s, some e)) := by
  obtain ⟨k, hk, h⟩ := withActor_eq_next h
  refine ⟨k, hk, ?_⟩
  split at h
  · rename_i e he
    cases h
    exact .inr ⟨e, he, rfl⟩
  · rename_i he
    obtain ⟨s', h1, h2⟩ := andThen_eq_next h
    cases h2
    exact .inl ⟨s', he, h1, rfl⟩

end Sys2Proof.Machine
end

