-- ==== Sys2Proof/Laws/Sequencer.lean ====
section
/-! SUPPORT. What the sequencer's steps do: one lemma for each kind of micro-op step, and the unrolling of a whole
command. -/

namespace Sys2Proof.Machine

/-! ## A step with a known micro-op -/

/-- The micro-op step performs the program's micro-op and concludes (R140). -/
theorem microStep_eq {s : State} {k : Ctrl} {c : Command} {op : MicroOp} (hk : s.actor? = some k)
    (hc : k.cmd = some c) (ho : microOp c k.step k.t = some op) :
    microStep s = andThen (performMicro op s) fun r => .next (concludeMicro c k.step r.2 r.1) := by
  simp [microStep, withActor_some hk, hc, ho]

/-- A raised error ends the command (R202). -/
theorem concludeMicro_error (c : Command) (n : Nat) (st : Status) (s : State) :
    concludeMicro c n (some st) s = endCommand st false s := by
  simp [concludeMicro]

/-- A micro-op that is not the last advances the counter (R38). -/
theorem concludeMicro_advance {c : Command} {n : Nat} (h : n + 1 ≠ programLength c) (s : State) :
    concludeMicro c n none s = s.modifyActor Ctrl.advance := by
  simp [concludeMicro, h]

/-- The last micro-op ends the command with OK (R140). -/
theorem concludeMicro_last {c : Command} {n : Nat} (h : n + 1 = programLength c) (s : State) {k : Ctrl}
    (hk : s.actor? = some k) : concludeMicro c n none s = endCommand .ok (responseLevel c k.t) s := by
  simp [concludeMicro, h, hk]

/-! ## Raw access -/

/-- A READ_REG without error whose bus read answers (R146). -/
theorem readReg_next {i : Nat} {s s' : State} {k : Ctrl} (hk : s.actor? = some k) (he : rawError k i = none)
    (h : busRead i s = .next s') : readReg i s = .next (s'.modifyActor (fun k => k.setT s'.rdata), none) := by
  simp [readReg, withActor_some hk, he, h]

/-- A WRITE_REG without error whose bus write answers (R147). -/
theorem writeReg_next {i : Nat} {v : Word} {s s' : State} {k : Ctrl} (hk : s.actor? = some k)
    (he : rawError k i = none) (h : busWrite i v s = .next s') : writeReg i v s = .next (s', none) := by
  simp [writeReg, withActor_some hk, he, h]

/-- A raw read with an error leaves the state as it was (R146). -/
theorem readReg_error {i : Nat} {s : State} {k : Ctrl} {e : Status} (hk : s.actor? = some k)
    (he : rawError k i = some e) : readReg i s = .next (s, some e) := by
  simp [readReg, withActor_some hk, he]

/-- A raw write with an error leaves the state as it was (R147). -/
theorem writeReg_error {i : Nat} {v : Word} {s : State} {k : Ctrl} {e : Status} (hk : s.actor? = some k)
    (he : rawError k i = some e) : writeReg i v s = .next (s, some e) := by
  simp [writeReg, withActor_some hk, he]

/-! ## The registers of a valid pin -/

/-- A bus write of the clock register of a valid pin with that pin's strobe answers (R114, R148). -/
theorem busWrite_strobe (p : Nat) (hp : p < 54) (s : State) :
    busWrite (pudclkIndex p) (onehot p) s = .next (s.withRf (s.rf.writePudclk (p / 32) (onehot p))) := by
  have hb : p / 32 = 0 ∨ p / 32 = 1 := by omega
  rcases hb with h | h
  · simp [busWrite, pudclkIndex, bank, h, writePudclk]
  · simp [busWrite, pudclkIndex, bank, h, writePudclk, reservedBank1_onehot p hp h]

/-- A bus write of 0 to the clock register of a valid pin answers (R114). -/
theorem busWrite_release (p : Nat) (hp : p < 54) (s : State) :
    busWrite (pudclkIndex p) 0 s = .next (s.withRf (s.rf.writePudclk (p / 32) 0)) := by
  have hb : p / 32 = 0 ∨ p / 32 = 1 := by omega
  have h0 : reservedBank1 0#32 = 0#10 := by decide
  rcases hb with h | h <;> simp [busWrite, pudclkIndex, bank, h, writePudclk, h0]

/-- A bus write of the set register of a valid pin with that pin's bit answers (R105, R148). -/
theorem busWrite_set (p : Nat) (hp : p < 54) (s : State) :
    busWrite (setIndex p) (onehot p) s = .next (s.withRf (s.rf.writeLatches (p / 32) (onehot p) true)) := by
  have hb : p / 32 = 0 ∨ p / 32 = 1 := by omega
  rcases hb with h | h
  · simp [busWrite, setIndex, bank, h, writeSet, writeLatches, onehot_ne_zero]
  · simp [busWrite, setIndex, bank, h, writeSet, writeLatches, onehot_ne_zero, reservedBank1_onehot p hp h]

/-- A bus write of the clear register of a valid pin with that pin's bit answers (R107, R148). -/
theorem busWrite_clr (p : Nat) (hp : p < 54) (s : State) :
    busWrite (clrIndex p) (onehot p) s = .next (s.withRf (s.rf.writeLatches (p / 32) (onehot p) false)) := by
  have hb : p / 32 = 0 ∨ p / 32 = 1 := by omega
  rcases hb with h | h
  · simp [busWrite, clrIndex, bank, h, writeClr, writeLatches, onehot_ne_zero]
  · simp [busWrite, clrIndex, bank, h, writeClr, writeLatches, onehot_ne_zero, reservedBank1_onehot p hp h]

/-- A bus read of the level register of a valid pin answers (R109). -/
theorem busRead_lev (p : Nat) (hp : p < 54) (s : State) : busRead (levIndex p) s = .next (readLev (p / 32) s) := by
  have hb : p / 32 = 0 ∨ p / 32 = 1 := by omega
  rcases hb with h | h <;> simp [busRead, levIndex, bank, h]

/-- A bus read of the select register of a valid pin answers (R102). -/
theorem busRead_fsel (p : Nat) (hp : p < 54) (s : State) : busRead (fselIndex p) s = .next (readFsel (p / 10) s) := by
  have : p / 10 ≤ 5 := by omega
  simp [busRead, fselIndex, this]

/-- A bus write of the select register of a valid pin answers (R103). -/
theorem busWrite_fsel (p : Nat) (hp : p < 54) (v : Word) (s : State) :
    busWrite (fselIndex p) v s = .next (s.withRf (s.rf.writeFsel (p / 10) v)) := by
  have : p / 10 ≤ 5 := by omega
  simp [busWrite, fselIndex, this, writeFsel]

/-- A bus read of the pull-control register answers (R111). -/
@[simp] theorem busRead_pud (s : State) : busRead pudIndex s = .next (readPud s) := by
  simp [busRead, pudIndex]

/-- A bus write of the pull-control register answers (R112). -/
@[simp] theorem busWrite_pud (v : Word) (s : State) :
    busWrite pudIndex v s = .next (s.withRf (s.rf.writePud v)) := by
  simp [busWrite, pudIndex, writePud]

/-! ## Micro-op steps by kind -/

/-- A READ_REG step that is not the program's last. -/
theorem microStep_read {s s' : State} {k : Ctrl} {c : Command} {i : Nat} (hk : s.actor? = some k)
    (hc : k.cmd = some c) (ho : microOp c k.step k.t = some (.read i)) (hl : k.step + 1 ≠ programLength c)
    (he : rawError k i = none) (h : busRead i s = .next s') :
    microStep s = .next (s'.modifyActor fun k => (k.setT s'.rdata).advance) := by
  rw [microStep_eq hk hc ho, performMicro, readReg_next hk he h, andThen_next, concludeMicro_advance hl,
    State.modifyActor_modifyActor]

/-- A WRITE_REG step that is not the program's last. -/
theorem microStep_write {s s' : State} {k : Ctrl} {c : Command} {i : Nat} {v : Word} (hk : s.actor? = some k)
    (hc : k.cmd = some c) (ho : microOp c k.step k.t = some (.write i v)) (hl : k.step + 1 ≠ programLength c)
    (he : rawError k i = none) (h : busWrite i v s = .next s') : microStep s = .next (s'.modifyActor Ctrl.advance) := by
  rw [microStep_eq hk hc ho, performMicro, writeReg_next hk he h, andThen_next, concludeMicro_advance hl]

/-- A WRITE_REG step that is the program's last. -/
theorem microStep_write_last {s s' : State} {k : Ctrl} {c : Command} {i : Nat} {v : Word} (hk : s.actor? = some k)
    (hc : k.cmd = some c) (ho : microOp c k.step k.t = some (.write i v)) (hl : k.step + 1 = programLength c)
    (he : rawError k i = none) (h : busWrite i v s = .next s') :
    microStep s = .next (endCommand .ok (responseLevel c k.t) s') := by
  obtain ⟨rf, rfl⟩ := busWrite_frame h
  rw [microStep_eq hk hc ho, performMicro, writeReg_next hk he h, andThen_next,
    concludeMicro_last hl _ (k := k) (by simpa using hk)]

/-- A READ_REG step that is the program's last. -/
theorem microStep_read_last {s s' : State} {k : Ctrl} {c : Command} {i : Nat} (hk : s.actor? = some k)
    (hc : k.cmd = some c) (ho : microOp c k.step k.t = some (.read i)) (hl : k.step + 1 = programLength c)
    (he : rawError k i = none) (h : busRead i s = .next s') :
    microStep s = .next (endCommand .ok (responseLevel c s'.rdata) (s'.modifyActor fun k => k.setT s'.rdata)) := by
  have hs : s'.actor? = some k := by
    have f := busRead_frame h
    simpa [State.actor?, f.1, f.2.2.2.1] using hk
  rw [microStep_eq hk hc ho, performMicro, readReg_next hk he h, andThen_next,
    concludeMicro_last hl _ (k := k.setT s'.rdata) (by simp [hs])]
  simp

/-- An ENTRY step that passes (R141). -/
theorem microStep_entry {s : State} {k : Ctrl} {c : Command} {pin : BitVec 32} (hk : s.actor? = some k)
    (hc : k.cmd = some c) (ho : microOp c k.step k.t = some (.entry pin)) (hl : k.step + 1 ≠ programLength c)
    (he : entryError s.pinCheck k pin = none) : microStep s = .next (s.modifyActor Ctrl.advance) := by
  rw [microStep_eq hk hc ho, performMicro, withActor_some hk, andThen_next, he, concludeMicro_advance hl]

/-- A micro-op that raises an error ends the command (R202). -/
theorem microStep_error {s s' : State} {k : Ctrl} {c : Command} {op : MicroOp} {st : Status} (hk : s.actor? = some k)
    (hc : k.cmd = some c) (ho : microOp c k.step k.t = some op) (h : performMicro op s = .next (s', some st)) :
    microStep s = .next (endCommand st false s') := by
  rw [microStep_eq hk hc ho, h, andThen_next, concludeMicro_error]

/-- ENTRY passes on an open controller with an allowed pin (R141). -/
theorem entryError_none {pc : PinCheck} {k : Ctrl} {pin : BitVec 32} (ho : k.isOpen = true)
    (hp : pc = .checked → pin.toNat < 54) : entryError pc k pin = none := by
  simp only [entryError, ho, Bool.true_eq_false, if_false]
  split
  · rename_i h
    have := hp h.1
    omega
  · rfl

/-! ## Whole commands -/

/-- A command in flight makes one more step. -/
theorem runToEnd_succ {n : Nat} {s : State} {k : Ctrl} {c : Command} (hk : s.actor? = some k) (hc : k.cmd = some c) :
    runToEnd (n + 1) s = andThen (microStep s) (runToEnd n) := by
  simp [runToEnd, withActor_some hk, hc]

/-- An idle controller makes no more step. -/
theorem runToEnd_idle {n : Nat} {s : State} {k : Ctrl} (hk : s.actor? = some k) (hc : k.cmd = none) :
    runToEnd n s = .next s := by
  cases n <;> simp [runToEnd, withActor_some hk, hc]

/-- A command ended by an answer makes no more step. -/
theorem runToEnd_ended {n : Nat} {s : State} {k : Ctrl} (hk : s.actor? = some k) (st : Status) (b : Bool) :
    runToEnd n (endCommand st b s) = .next (endCommand st b s) :=
  runToEnd_idle (k := k.finish (rspWord st b) (Config.freeTemp s.draws s.cur)) (by simp [hk]) rfl

/-- A command on an idle controller is accepted and run (R140, R64). -/
theorem runCommand_idle {c : Command} {s : State} {k : Ctrl} (hk : s.actor? = some k) (hc : k.cmd = none) :
    runCommand c s = runToEnd 9 (s.modifyActor fun k => k.accept c) := by
  simp [runCommand, acceptCommand, withActor_some hk, hc]

/-- What every micro-op step keeps, running to the end keeps. -/
theorem runToEnd_keeps {P : State → Prop} (hP : ∀ s t, P s → microStep s = .next t → P t) :
    ∀ (n : Nat) (s t : State), P s → runToEnd n s = .next t → P t := by
  intro n
  induction n with
  | zero => intro s t h e; cases e; exact h
  | succ n ih =>
    intro s t h e
    obtain ⟨k, hk, e⟩ := withActor_eq_next e
    split at e
    · cases e; exact h
    · obtain ⟨u, h1, h2⟩ := andThen_eq_next e
      exact ih u t (hP s u h h1) h2

/-- What the issue step and every micro-op step keep, a whole command keeps. -/
theorem runCommand_keeps {P : State → Prop} {c : Command}
    (hA : ∀ s t, P s → acceptCommand c s = .next t → P t) (hP : ∀ s t, P s → microStep s = .next t → P t)
    {s t : State} (h : P s) (e : runCommand c s = .next t) : P t := by
  obtain ⟨u, h1, h2⟩ := andThen_eq_next e
  exact runToEnd_keeps hP 9 u t (hA s u h h1) h2

end Sys2Proof.Machine
end

