-- ==== Sys2Proof/Laws/Frames.lean ====
section
/-! SUPPORT. What each shared operation leaves alone (`Quiet`), and when a command has ended (`Ended`). -/

namespace Sys2Proof.Machine

/-! ## Quiet -/

theorem Quiet.refl (s : State) : Quiet s s := ⟨rfl, rfl, rfl, rfl, fun _ _ => rfl⟩

theorem Quiet.trans {s t u : State} (h : Quiet s t) (g : Quiet t u) : Quiet s u :=
  ⟨g.1.trans h.1, g.2.1.trans h.2.1, g.2.2.1.trans h.2.2.1, g.2.2.2.1.trans h.2.2.2.1,
    fun c hc => (g.2.2.2.2 c (by rw [h.2.2.1]; exact hc)).trans (h.2.2.2.2 c hc)⟩

theorem quiet_modifyActor (s : State) (f : Ctrl → Ctrl) : Quiet s (s.modifyActor f) :=
  ⟨rfl, rfl, rfl, rfl, fun c hc => s.modifyActor_other f c hc⟩

theorem quiet_withRf (s : State) (rf : RegFile) : Quiet s (s.withRf rf) := ⟨rfl, rfl, rfl, rfl, fun _ _ => rfl⟩

theorem quiet_draw (s : State) : Quiet s s.draw := ⟨rfl, rfl, rfl, rfl, fun _ _ => rfl⟩

theorem quiet_dropOpen (s : State) : Quiet s s.dropOpen := ⟨rfl, rfl, rfl, rfl, fun _ _ => rfl⟩

theorem quiet_endCommand (st : Status) (b : Bool) (s : State) : Quiet s (endCommand st b s) :=
  (quiet_modifyActor s _).trans (quiet_draw _)

theorem quiet_busRead {i : Nat} {s s' : State} (h : busRead i s = .next s') : Quiet s s' := by
  have f := busRead_frame h
  exact ⟨f.2.1, f.2.2.1, f.2.2.2.1, f.2.2.2.2.2, fun c _ => by rw [f.1]⟩

theorem quiet_busWrite {i : Nat} {v : Word} {s s' : State} (h : busWrite i v s = .next s') : Quiet s s' := by
  obtain ⟨rf, rfl⟩ := busWrite_frame h
  exact quiet_withRf _ _

theorem quiet_readReg {i : Nat} {s : State} {r : State × Option Status} (h : readReg i s = .next r) : Quiet s r.1 := by
  obtain ⟨k, -, ⟨s', -, h1, rfl⟩ | ⟨e, -, rfl⟩⟩ := readReg_cases h
  · exact (quiet_busRead h1).trans (quiet_modifyActor _ _)
  · exact .refl _

theorem quiet_writeReg {i : Nat} {v : Word} {s : State} {r : State × Option Status} (h : writeReg i v s = .next r) :
    Quiet s r.1 := by
  obtain ⟨k, -, ⟨s', -, h1, rfl⟩ | ⟨e, -, rfl⟩⟩ := writeReg_cases h
  · exact quiet_busWrite h1
  · exact .refl _

theorem quiet_performMicro {op : MicroOp} {s : State} {r : State × Option Status} (h : performMicro op s = .next r) :
    Quiet s r.1 := by
  cases op with
  | entry pin =>
    obtain ⟨k, -, h⟩ := withActor_eq_next h
    cases h
    exact .refl _
  | openWindow =>
    obtain ⟨k, -, h⟩ := withActor_eq_next h
    split at h <;> cases h
    · exact .refl _
    · exact (quiet_dropOpen s).trans (quiet_modifyActor _ _)
  | closeWindow =>
    obtain ⟨k, -, h⟩ := withActor_eq_next h
    split at h <;> cases h
    · exact quiet_modifyActor _ _
    · exact .refl _
  | read i => exact quiet_readReg h
  | write i v => exact quiet_writeReg h

theorem quiet_concludeMicro (c : Command) (n : Nat) (e : Option Status) (s : State) :
    Quiet s (concludeMicro c n e s) := by
  unfold concludeMicro
  split
  · exact quiet_endCommand _ _ _
  · exact quiet_modifyActor _ _

/-- All a micro-op step can do when it answers: nothing, on an idle controller; else its micro-op and the conclusion. -/
theorem microStep_cases {s t : State} (h : microStep s = .next t) :
    ∃ k, s.actor? = some k ∧
      ((k.cmd = none ∧ t = s) ∨
        ∃ c op r, k.cmd = some c ∧ microOp c k.step k.t = some op ∧ performMicro op s = .next r ∧
          t = concludeMicro c k.step r.2 r.1) := by
  obtain ⟨k, hk, h⟩ := withActor_eq_next h
  refine ⟨k, hk, ?_⟩
  split at h
  · rename_i hc
    cases h
    exact .inl ⟨hc, rfl⟩
  · rename_i c hc
    split at h
    · cases h
    · rename_i op ho
      obtain ⟨r, h1, h2⟩ := andThen_eq_next h
      cases h2
      exact .inr ⟨c, op, r, hc, ho, h1, rfl⟩

theorem quiet_microStep {s t : State} (h : microStep s = .next t) : Quiet s t := by
  obtain ⟨k, -, ⟨-, rfl⟩ | ⟨c, op, r, -, -, h1, rfl⟩⟩ := microStep_cases h
  · exact .refl _
  · exact (quiet_performMicro h1).trans (quiet_concludeMicro _ _ _ _)

/-- All an issue step of a legal word can do when it answers. -/
theorem acceptCommand_cases {c : Command} {s t : State} (h : acceptCommand c s = .next t) :
    ∃ k, s.actor? = some k ∧ k.cmd = none ∧ t = s.modifyActor fun k => k.accept c := by
  obtain ⟨k, hk, h⟩ := withActor_eq_next h
  split at h
  · cases h
  · rename_i hc
    cases h
    exact ⟨k, hk, by simpa using hc, rfl⟩

/-- All an issue step of an illegal word can do when it answers. -/
theorem rejectCommand_cases {s t : State} (h : rejectCommand s = .next t) :
    ∃ k, s.actor? = some k ∧ k.cmd = none ∧ t = s.modifyActor fun k => k.reject (rspWord .errIllegalCmd false) := by
  obtain ⟨k, hk, h⟩ := withActor_eq_next h
  split at h
  · cases h
  · rename_i hc
    cases h
    exact ⟨k, hk, by simpa using hc, rfl⟩

theorem quiet_runToEnd {n : Nat} {s t : State} (h : runToEnd n s = .next t) : Quiet s t :=
  runToEnd_keeps (P := Quiet s) (fun _ _ q e => q.trans (quiet_microStep e)) n s t (.refl s) h

theorem quiet_runCommand {c : Command} {s t : State} (h : runCommand c s = .next t) : Quiet s t := by
  refine runCommand_keeps (P := Quiet s) (fun u v q e => ?_) (fun _ _ q e => q.trans (quiet_microStep e)) (.refl s) h
  obtain ⟨k, -, -, rfl⟩ := acceptCommand_cases e
  exact q.trans (quiet_modifyActor _ _)

theorem quiet_settleError {o : MicroResult} {s t : State} (ho : ∀ r, o = .next r → Quiet s r.1)
    (h : settleError o = .next t) : Quiet s t := by
  obtain ⟨⟨u, e⟩, h1, h2⟩ := andThen_eq_next h
  cases h2
  cases e with
  | none => exact ho _ h1
  | some st => exact (ho _ h1).trans (quiet_endCommand _ _ _)

/-! ## The acting controller -/

/-- A bus read leaves the acting controller alone. -/
theorem busRead_actor {i : Nat} {s s' : State} (h : busRead i s = .next s') : s'.actor? = s.actor? := by
  have f := busRead_frame h
  simp [State.actor?, f.1, f.2.2.2.1]

/-- A bus write leaves the acting controller alone. -/
theorem busWrite_actor {i : Nat} {v : Word} {s s' : State} (h : busWrite i v s = .next s') : s'.actor? = s.actor? := by
  obtain ⟨rf, rfl⟩ := busWrite_frame h
  rfl

/-- A command ended by `endCommand` has `Ended`, for any controller that agrees on what a command does not change. -/
theorem ended_endCommand {s : State} {k k' : Ctrl} (h : s.actor? = some k') (ho : k'.isOpen = k.isOpen)
    (hp : k'.pending = k.pending) {st : Status} {b : Bool} {w : Word} (hw : rspWord st b = w) :
    Ended k w (endCommand st b s) := by
  refine ⟨Config.freeTemp s.draws s.cur, ?_⟩
  simp [h, Ctrl.finish, ho, hp, hw]

end Sys2Proof.Machine
end

