-- ==== Sys2Proof/Laws/PerInstr.lean ====
section
/-! SUPPORT. The family `TableRow`: the encoding of every instruction has the fixed fields that its row of
spec/opcode_table.json gives, one lemma per constructor. -/

namespace Sys2Proof.Laws.TableRow

/-- A fixed field of a row: its lowest bit, its width, its value. -/
structure FixedField where
  low : Nat
  width : Nat
  value : Nat
  deriving DecidableEq, Repr

/-- The value of a field of a port word. -/
def fieldValue (w : PortWord) (f : FixedField) : BitVec f.width :=
  match w with
  | .cmd w => w.extractLsb' f.low f.width
  | .uop w => w.extractLsb' f.low f.width
  | .bus w => w.extractLsb' f.low f.width

/-- The fixed fields of each row, read off its mask and match or its encoding. The bits of KEY are bits 42 to 32 of the bus
request (R91). -/
def fixedFields : Instr → List FixedField
  | .openCmd => [⟨60, 4, 0x1⟩, ⟨58, 2, 0x0⟩, ⟨57, 1, 0x0⟩, ⟨56, 1, 0x0⟩, ⟨32, 24, 0x0⟩, ⟨0, 32, 0x0⟩]
  | .closeCmd => [⟨60, 4, 0x2⟩, ⟨58, 2, 0x0⟩, ⟨57, 1, 0x0⟩, ⟨56, 1, 0x0⟩, ⟨32, 24, 0x0⟩, ⟨0, 32, 0x0⟩]
  | .setPull _ _ => [⟨60, 4, 0x3⟩, ⟨57, 1, 0x0⟩, ⟨56, 1, 0x0⟩, ⟨32, 24, 0x0⟩]
  | .setup _ _ _ => [⟨60, 4, 0x4⟩, ⟨56, 1, 0x0⟩, ⟨32, 24, 0x0⟩]
  | .output _ _ => [⟨60, 4, 0x5⟩, ⟨58, 2, 0x0⟩, ⟨57, 1, 0x0⟩, ⟨32, 24, 0x0⟩]
  | .input _ => [⟨60, 4, 0x6⟩, ⟨58, 2, 0x0⟩, ⟨57, 1, 0x0⟩, ⟨56, 1, 0x0⟩, ⟨32, 24, 0x0⟩]
  | .readReg _ => [⟨42, 1, 0x0⟩, ⟨0, 32, 0x0⟩]
  | .writeReg _ _ => [⟨42, 1, 0x1⟩]
  | .rdFsel0 => [⟨42, 1, 0x0⟩, ⟨32, 10, 0x0⟩]
  | .wrFsel0 _ => [⟨42, 1, 0x1⟩, ⟨32, 10, 0x0⟩]
  | .rdFsel1 => [⟨42, 1, 0x0⟩, ⟨32, 10, 0x1⟩]
  | .wrFsel1 _ => [⟨42, 1, 0x1⟩, ⟨32, 10, 0x1⟩]
  | .rdFsel2 => [⟨42, 1, 0x0⟩, ⟨32, 10, 0x2⟩]
  | .wrFsel2 _ => [⟨42, 1, 0x1⟩, ⟨32, 10, 0x2⟩]
  | .rdFsel3 => [⟨42, 1, 0x0⟩, ⟨32, 10, 0x3⟩]
  | .wrFsel3 _ => [⟨42, 1, 0x1⟩, ⟨32, 10, 0x3⟩]
  | .rdFsel4 => [⟨42, 1, 0x0⟩, ⟨32, 10, 0x4⟩]
  | .wrFsel4 _ => [⟨42, 1, 0x1⟩, ⟨32, 10, 0x4⟩]
  | .rdFsel5 => [⟨42, 1, 0x0⟩, ⟨32, 10, 0x5⟩]
  | .wrFsel5 _ => [⟨42, 1, 0x1⟩, ⟨32, 10, 0x5⟩]
  | .rdSet0 => [⟨42, 1, 0x0⟩, ⟨32, 10, 0x7⟩]
  | .wrSet0 _ => [⟨42, 1, 0x1⟩, ⟨32, 10, 0x7⟩]
  | .rdSet1 => [⟨42, 1, 0x0⟩, ⟨32, 10, 0x8⟩]
  | .wrSet1 _ => [⟨42, 1, 0x1⟩, ⟨32, 10, 0x8⟩]
  | .rdClr0 => [⟨42, 1, 0x0⟩, ⟨32, 10, 0xA⟩]
  | .wrClr0 _ => [⟨42, 1, 0x1⟩, ⟨32, 10, 0xA⟩]
  | .rdClr1 => [⟨42, 1, 0x0⟩, ⟨32, 10, 0xB⟩]
  | .wrClr1 _ => [⟨42, 1, 0x1⟩, ⟨32, 10, 0xB⟩]
  | .rdLev0 => [⟨42, 1, 0x0⟩, ⟨32, 10, 0xD⟩]
  | .wrLev0 _ => [⟨42, 1, 0x1⟩, ⟨32, 10, 0xD⟩]
  | .rdLev1 => [⟨42, 1, 0x0⟩, ⟨32, 10, 0xE⟩]
  | .wrLev1 _ => [⟨42, 1, 0x1⟩, ⟨32, 10, 0xE⟩]
  | .rdPud => [⟨42, 1, 0x0⟩, ⟨32, 10, 0x25⟩]
  | .wrPud _ => [⟨42, 1, 0x1⟩, ⟨32, 10, 0x25⟩]
  | .rdPudclk0 => [⟨42, 1, 0x0⟩, ⟨32, 10, 0x26⟩]
  | .wrPudclk0 _ => [⟨42, 1, 0x1⟩, ⟨32, 10, 0x26⟩]
  | .rdPudclk1 => [⟨42, 1, 0x0⟩, ⟨32, 10, 0x27⟩]
  | .wrPudclk1 _ => [⟨42, 1, 0x1⟩, ⟨32, 10, 0x27⟩]
  | .rdUnlisted _ => [⟨42, 1, 0x0⟩]
  | .wrUnlisted _ _ => [⟨42, 1, 0x1⟩]

/-- The encoding of `i` has every fixed field of its row. -/
def Statement (i : Instr) : Prop := ∀ f ∈ fixedFields i, fieldValue (encode i) f = BitVec.ofNat f.width f.value

theorem openCmd : Statement .openCmd := by simp [Statement, fixedFields, fieldValue, encode]

theorem closeCmd : Statement .closeCmd := by simp [Statement, fixedFields, fieldValue, encode]

theorem setPull (pin : BitVec 32) (mode : PullMode) : Statement (.setPull pin mode) := by simp [Statement, fixedFields, fieldValue, encode]

theorem setup (pin : BitVec 32) (dir : PinDirection) (mode : PullMode) : Statement (.setup pin dir mode) := by simp [Statement, fixedFields, fieldValue, encode]

theorem output (pin : BitVec 32) (level : PinLevel) : Statement (.output pin level) := by simp [Statement, fixedFields, fieldValue, encode]

theorem input (pin : BitVec 32) : Statement (.input pin) := by simp [Statement, fixedFields, fieldValue, encode]

theorem readReg (i : Nat) : Statement (.readReg i) := by simp [Statement, fixedFields, fieldValue, encode]

theorem writeReg (i : Nat) (v : Word) : Statement (.writeReg i v) := by simp [Statement, fixedFields, fieldValue, encode]

theorem rdFsel0 : Statement .rdFsel0 := by simp [Statement, fixedFields, fieldValue, encode]

theorem wrFsel0 (v : Word) : Statement (.wrFsel0 v) := by simp [Statement, fixedFields, fieldValue, encode]

theorem rdFsel1 : Statement .rdFsel1 := by simp [Statement, fixedFields, fieldValue, encode]

theorem wrFsel1 (v : Word) : Statement (.wrFsel1 v) := by simp [Statement, fixedFields, fieldValue, encode]

theorem rdFsel2 : Statement .rdFsel2 := by simp [Statement, fixedFields, fieldValue, encode]

theorem wrFsel2 (v : Word) : Statement (.wrFsel2 v) := by simp [Statement, fixedFields, fieldValue, encode]

theorem rdFsel3 : Statement .rdFsel3 := by simp [Statement, fixedFields, fieldValue, encode]

theorem wrFsel3 (v : Word) : Statement (.wrFsel3 v) := by simp [Statement, fixedFields, fieldValue, encode]

theorem rdFsel4 : Statement .rdFsel4 := by simp [Statement, fixedFields, fieldValue, encode]

theorem wrFsel4 (v : Word) : Statement (.wrFsel4 v) := by simp [Statement, fixedFields, fieldValue, encode]

theorem rdFsel5 : Statement .rdFsel5 := by simp [Statement, fixedFields, fieldValue, encode]

theorem wrFsel5 (v : Word) : Statement (.wrFsel5 v) := by simp [Statement, fixedFields, fieldValue, encode]

theorem rdSet0 : Statement .rdSet0 := by simp [Statement, fixedFields, fieldValue, encode]

theorem wrSet0 (v : Word) : Statement (.wrSet0 v) := by simp [Statement, fixedFields, fieldValue, encode]

theorem rdSet1 : Statement .rdSet1 := by simp [Statement, fixedFields, fieldValue, encode]

theorem wrSet1 (v : Word) : Statement (.wrSet1 v) := by simp [Statement, fixedFields, fieldValue, encode]

theorem rdClr0 : Statement .rdClr0 := by simp [Statement, fixedFields, fieldValue, encode]

theorem wrClr0 (v : Word) : Statement (.wrClr0 v) := by simp [Statement, fixedFields, fieldValue, encode]

theorem rdClr1 : Statement .rdClr1 := by simp [Statement, fixedFields, fieldValue, encode]

theorem wrClr1 (v : Word) : Statement (.wrClr1 v) := by simp [Statement, fixedFields, fieldValue, encode]

theorem rdLev0 : Statement .rdLev0 := by simp [Statement, fixedFields, fieldValue, encode]

theorem wrLev0 (v : Word) : Statement (.wrLev0 v) := by simp [Statement, fixedFields, fieldValue, encode]

theorem rdLev1 : Statement .rdLev1 := by simp [Statement, fixedFields, fieldValue, encode]

theorem wrLev1 (v : Word) : Statement (.wrLev1 v) := by simp [Statement, fixedFields, fieldValue, encode]

theorem rdPud : Statement .rdPud := by simp [Statement, fixedFields, fieldValue, encode]

theorem wrPud (v : Word) : Statement (.wrPud v) := by simp [Statement, fixedFields, fieldValue, encode]

theorem rdPudclk0 : Statement .rdPudclk0 := by simp [Statement, fixedFields, fieldValue, encode]

theorem wrPudclk0 (v : Word) : Statement (.wrPudclk0 v) := by simp [Statement, fixedFields, fieldValue, encode]

theorem rdPudclk1 : Statement .rdPudclk1 := by simp [Statement, fixedFields, fieldValue, encode]

theorem wrPudclk1 (v : Word) : Statement (.wrPudclk1 v) := by simp [Statement, fixedFields, fieldValue, encode]

theorem rdUnlisted (i : BitVec 10) : Statement (.rdUnlisted i) := by simp [Statement, fixedFields, fieldValue, encode]

theorem wrUnlisted (i : BitVec 10) (v : Word) : Statement (.wrUnlisted i v) := by simp [Statement, fixedFields, fieldValue, encode]

end Sys2Proof.Laws.TableRow
end

