-- ==== Sys2Proof/Laws/PullSequence.lean ====
section
/-! SUPPORT. Steps 1 to 5 of the pull latch sequence, once for SET_PULL and SETUP (R165, R180). -/

namespace Sys2Proof.Machine

/-- From step 1 of a program whose steps 1 to 6 are the pull latch sequence of a valid pin, five steps lead to step 6: the
mode was staged, the pin strobed, and the staging value returned to 0. -/
theorem runToEnd_pullSequence {s : State} {k : Ctrl} {c : Command} {pin : BitVec 32} {m : PullMode} (n : Nat)
    (hk : s.actor? = some k) (hc : k.cmd = some c) (ho : k.isOpen = true)
    (h1 : k.step = 1)
    (hops : ∀ j t, 1 ≤ j → j ≤ 6 → microOp c j t = pullOp pin m j t) (hl : 7 ≤ programLength c)
    (hp : pin.toNat < 54) :
    ∃ s6 t6, runToEnd (n + 5) s = runToEnd n s6 ∧ s6.actor? = some { k with step := 6, t := t6 } ∧
      (∃ a b, low2 a = pullCode m ∧ low2 b = 0 ∧
        s6.rf = ((s.rf.writePud a).writePudclk (pin.toNat / 32) (onehot pin.toNat)).writePud b) ∧
      Quiet s s6 ∧ s6.opens = s.opens ∧ s6.levels = s.levels := by
  have hi : ∀ k' : Ctrl, k'.isOpen = true → rawError k' (pudclkIndex pin.toNat) = none := fun k' h =>
    rawError_none h (by simp [pudclkIndex, bank]; omega)
  have hj : ∀ k' : Ctrl, k'.isOpen = true → rawError k' pudIndex = none := fun k' h =>
    rawError_none h (by decide)
  rw [runToEnd_succ hk hc, microStep_read hk hc (by rw [h1, hops 1 _ (by omega) (by omega)]; rfl) (by omega) (hj _ ho)
    (busRead_pud s), andThen_next]
  generalize hs2 : (readPud s).modifyActor _ = s2
  have a2 : s2.actor? = some (k.setT (readPud s).rdata).advance := by
    rw [← hs2]; simp [busRead_actor (busRead_pud s), hk]
  rw [runToEnd_succ a2 (by simpa using hc), microStep_write a2 (by simpa using hc)
    (by simp only [Ctrl.advance_step, Ctrl.setT_step, h1]; rw [hops 2 _ (by omega) (by omega)]; rfl)
    (by simp; omega) (hj _ (by simpa using ho)) (busWrite_pud _ _), andThen_next]
  generalize hs3 : State.modifyActor _ _ = s3
  have a3 : s3.actor? = some (k.setT (readPud s).rdata).advance.advance := by
    rw [← hs3]; simp [a2]
  rw [runToEnd_succ a3 (by simpa using hc), microStep_write a3 (by simpa using hc)
    (by simp only [Ctrl.advance_step, Ctrl.setT_step, h1]; rw [hops 3 _ (by omega) (by omega)]; rfl)
    (by simp; omega) (hi _ (by simpa using ho)) (busWrite_strobe _ hp _), andThen_next]
  generalize hs4 : State.modifyActor _ _ = s4
  have a4 : s4.actor? = some (k.setT (readPud s).rdata).advance.advance.advance := by
    rw [← hs4]; simp [a3]
  rw [runToEnd_succ a4 (by simpa using hc), microStep_read a4 (by simpa using hc)
    (by simp only [Ctrl.advance_step, Ctrl.setT_step, h1]; rw [hops 4 _ (by omega) (by omega)]; rfl)
    (by simp; omega) (hj _ (by simpa using ho)) (busRead_pud _), andThen_next]
  generalize hs5 : State.modifyActor _ _ = s5
  have a5 : s5.actor? =
      some ((k.setT (readPud s).rdata).advance.advance.advance.setT (readPud s4).rdata).advance := by
    rw [← hs5]; simp [busRead_actor (busRead_pud s4), a4]
  rw [runToEnd_succ a5 (by simpa using hc), microStep_write a5 (by simpa using hc)
    (by simp only [Ctrl.advance_step, Ctrl.setT_step, h1]; rw [hops 5 _ (by omega) (by omega)]; rfl)
    (by simp; omega) (hj _ (by simpa using ho)) (busWrite_pud _ _), andThen_next]
  generalize hs6 : State.modifyActor _ _ = s6
  have q2 : Quiet s s2 := by rw [← hs2]; exact (quiet_busRead (busRead_pud s)).trans (quiet_modifyActor _ _)
  have q3 : Quiet s2 s3 := by rw [← hs3]; exact (quiet_withRf _ _).trans (quiet_modifyActor _ _)
  have q4 : Quiet s3 s4 := by rw [← hs4]; exact (quiet_withRf _ _).trans (quiet_modifyActor _ _)
  have q5 : Quiet s4 s5 := by rw [← hs5]; exact (quiet_busRead (busRead_pud s4)).trans (quiet_modifyActor _ _)
  have q6 : Quiet s5 s6 := by rw [← hs6]; exact (quiet_withRf _ _).trans (quiet_modifyActor _ _)
  refine ⟨s6, _, rfl, by rw [← hs6]; simp [a5, Ctrl.advance, Ctrl.setT, h1]; rfl,
    ⟨clearLow2 (readPud s).rdata ||| pullWord m, clearLow2 (readPud s4).rdata, by simp, by simp, ?_⟩,
    q2.trans (q3.trans (q4.trans (q5.trans q6))), ?_, ?_⟩ <;>
  · rw [← hs6, ← hs5, ← hs4, ← hs3, ← hs2]; simp [readPud]

end Sys2Proof.Machine
end

