-- ==== Sys2Proof/Tests/Slice0.lean ====
section
/-! SUPPORT. Tests of the model's own author: ill-formed terms, words written out from the spec's encodings, single steps
against the spec's vectors (95_test_vectors.md), and for every statement with hypotheses a state that meets them. -/

namespace Sys2Proof.Tests

open Sys2Proof.Machine

/-! ## Small states -/

/-- Every pin an input, every latch Low, the sequencer idle, every pull off. -/
def rf0 : RegFile where
  fsel := pinTable fun _ => 0#3
  latch := pinTable fun _ => false
  pud := 0
  clk := pinTable fun _ => false
  pull := pinTable fun _ => .off

/-- `rf0` with pin 21 an output driving High. -/
def rf21 : RegFile :=
  { rf0 with
    fsel := pinTable fun p => if p.val = 21 then 1#3 else 0#3
    latch := pinTable fun p => decide (p.val = 21) }

/-- `rf0` with code 2 staged and the clock of pin 3 asserted. -/
def rfStrobe : RegFile := { rf0 with pud := 2, clk := pinTable fun p => decide (p.val = 3) }

/-- An open, idle controller. -/
def kOpen : Ctrl where
  isOpen := true
  cmd := none
  step := 0
  t := 0
  rsp := none
  pending := []

/-- A closed, idle controller. -/
def kClosed : Ctrl := { kOpen with isOpen := false }

/-- A controller in flight. -/
def kBusy (c : Command) (step : Nat) (t : Word) : Ctrl := { kOpen with cmd := some c, step := step, t := t }

/-- A controller with a word waiting. -/
def kWord (w : BitVec 64) : Ctrl := { kOpen with pending := [w] }

/-- A state with one controller, pins checked. -/
def st (k : Ctrl) (rf : RegFile) : State where
  rf := rf
  ctrls := [k]
  refused := false
  pinCheck := .checked
  cur := 0
  rdata := 0
  draws := 0
  opens := []
  levels := []
  sched := []

/-- The same with pins unchecked. -/
def stU (k : Ctrl) (rf : RegFile) : State := { st k rf with pinCheck := .unchecked }

/-- A state with turns waiting. -/
def turns (s : State) (ts : List Turn) : State := { s with sched := ts }

/-- Whether a next state passes a check. -/
def nextIs (o : Result) (f : State → Bool) : Bool :=
  match o with
  | .next t => f t
  | .fault _ => false
  | .refused _ => false

/-- The last response of controller 0. -/
def rsp0 (s : State) : Option Word := s.ctrls[0]?.bind Ctrl.rsp

/-! ## Ill-formed terms -/

theorem test_illFormed_readReg : WellFormed (.readReg 1024) = false := by decide
theorem test_illFormed_writeReg : WellFormed (.writeReg 1024 0) = false := by decide
theorem test_illFormed_rdUnlisted : WellFormed (.rdUnlisted 37) = false := by decide
theorem test_illFormed_wrUnlisted : WellFormed (.wrUnlisted 7 0) = false := by decide

/-! ## Words refused by the decoder (EN-12 to EN-25) -/

theorem test_refuse_badOp : decodeCmd 0x7000000000000000#64 = .error .badOp := by decide
theorem test_refuse_pullCode3 : decodeCmd 0x4E00000000000001#64 = .error .pullCode3 := by decide
theorem test_refuse_reserved : decodeCmd 0x6080000000000015#64 = .error .reservedBits := by decide
theorem test_refuse_unused : decodeCmd 0x2100000000000000#64 = .error .unusedField := by decide
theorem test_refuse_readWithData : decodeUop (0b0#1 ++ 0b0000100101#10 ++ 1#32) = .error .readWithData := by decide

/-! ## Words written out field by field

Command words by R81: OP, PULL, DIR, LVL, RSV, PIN. Bus requests and micro-ops by R90: WE, WIDX, WDATA. -/

theorem test_decode_openCmd : decode (.cmd (0b0001#4 ++ 0b00#2 ++ 0b0#1 ++ 0b0#1 ++ 0#24 ++ 0#32)) = .ok .openCmd := by
  decide
theorem test_decode_closeCmd : decode (.cmd (0b0010#4 ++ 0b00#2 ++ 0b0#1 ++ 0b0#1 ++ 0#24 ++ 0#32)) = .ok .closeCmd := by
  decide
theorem test_decode_setPull :
    decode (.cmd (0b0011#4 ++ 0b01#2 ++ 0b0#1 ++ 0b0#1 ++ 0#24 ++ 53#32)) = .ok (.setPull 53 .down) := by decide
theorem test_decode_setup :
    decode (.cmd (0b0100#4 ++ 0b10#2 ++ 0b1#1 ++ 0b0#1 ++ 0#24 ++ 21#32)) = .ok (.setup 21 .output .up) := by decide
theorem test_decode_output :
    decode (.cmd (0b0101#4 ++ 0b00#2 ++ 0b0#1 ++ 0b1#1 ++ 0#24 ++ 21#32)) = .ok (.output 21 .high) := by decide
theorem test_decode_input :
    decode (.cmd (0b0110#4 ++ 0b00#2 ++ 0b0#1 ++ 0b0#1 ++ 0#24 ++ 0xFFFFFFFF#32)) = .ok (.input 0xFFFFFFFF) := by decide
theorem test_decode_readReg : decode (.uop (0b0#1 ++ 0b0000100101#10 ++ 0#32)) = .ok (.readReg 37) := by decide
theorem test_decode_writeReg :
    decode (.uop (0b1#1 ++ 0b0000000111#10 ++ 0x00200000#32)) = .ok (.writeReg 7 0x00200000) := by decide

theorem test_decode_rdFsel0 : decode (.bus (0b0#1 ++ 0b0000000000#10 ++ 0#32)) = .ok .rdFsel0 := by decide
theorem test_decode_wrFsel0 : decode (.bus (0b1#1 ++ 0b0000000000#10 ++ 5#32)) = .ok (.wrFsel0 5) := by decide
theorem test_decode_rdFsel1 : decode (.bus (0b0#1 ++ 0b0000000001#10 ++ 0#32)) = .ok .rdFsel1 := by decide
theorem test_decode_wrFsel1 : decode (.bus (0b1#1 ++ 0b0000000001#10 ++ 5#32)) = .ok (.wrFsel1 5) := by decide
theorem test_decode_rdFsel2 : decode (.bus (0b0#1 ++ 0b0000000010#10 ++ 0#32)) = .ok .rdFsel2 := by decide
theorem test_decode_wrFsel2 : decode (.bus (0b1#1 ++ 0b0000000010#10 ++ 5#32)) = .ok (.wrFsel2 5) := by decide
theorem test_decode_rdFsel3 : decode (.bus (0b0#1 ++ 0b0000000011#10 ++ 0#32)) = .ok .rdFsel3 := by decide
theorem test_decode_wrFsel3 : decode (.bus (0b1#1 ++ 0b0000000011#10 ++ 5#32)) = .ok (.wrFsel3 5) := by decide
theorem test_decode_rdFsel4 : decode (.bus (0b0#1 ++ 0b0000000100#10 ++ 0#32)) = .ok .rdFsel4 := by decide
theorem test_decode_wrFsel4 : decode (.bus (0b1#1 ++ 0b0000000100#10 ++ 5#32)) = .ok (.wrFsel4 5) := by decide
theorem test_decode_rdFsel5 : decode (.bus (0b0#1 ++ 0b0000000101#10 ++ 0#32)) = .ok .rdFsel5 := by decide
theorem test_decode_wrFsel5 : decode (.bus (0b1#1 ++ 0b0000000101#10 ++ 5#32)) = .ok (.wrFsel5 5) := by decide
theorem test_decode_rdSet0 : decode (.bus (0b0#1 ++ 0b0000000111#10 ++ 0#32)) = .ok .rdSet0 := by decide
theorem test_decode_wrSet0 : decode (.bus (0b1#1 ++ 0b0000000111#10 ++ 5#32)) = .ok (.wrSet0 5) := by decide
theorem test_decode_rdSet1 : decode (.bus (0b0#1 ++ 0b0000001000#10 ++ 0#32)) = .ok .rdSet1 := by decide
theorem test_decode_wrSet1 : decode (.bus (0b1#1 ++ 0b0000001000#10 ++ 5#32)) = .ok (.wrSet1 5) := by decide
theorem test_decode_rdClr0 : decode (.bus (0b0#1 ++ 0b0000001010#10 ++ 0#32)) = .ok .rdClr0 := by decide
theorem test_decode_wrClr0 : decode (.bus (0b1#1 ++ 0b0000001010#10 ++ 5#32)) = .ok (.wrClr0 5) := by decide
theorem test_decode_rdClr1 : decode (.bus (0b0#1 ++ 0b0000001011#10 ++ 0#32)) = .ok .rdClr1 := by decide
theorem test_decode_wrClr1 : decode (.bus (0b1#1 ++ 0b0000001011#10 ++ 5#32)) = .ok (.wrClr1 5) := by decide
theorem test_decode_rdLev0 : decode (.bus (0b0#1 ++ 0b0000001101#10 ++ 0#32)) = .ok .rdLev0 := by decide
theorem test_decode_wrLev0 : decode (.bus (0b1#1 ++ 0b0000001101#10 ++ 5#32)) = .ok (.wrLev0 5) := by decide
theorem test_decode_rdLev1 : decode (.bus (0b0#1 ++ 0b0000001110#10 ++ 0#32)) = .ok .rdLev1 := by decide
theorem test_decode_wrLev1 : decode (.bus (0b1#1 ++ 0b0000001110#10 ++ 5#32)) = .ok (.wrLev1 5) := by decide
theorem test_decode_rdPud : decode (.bus (0b0#1 ++ 0b0000100101#10 ++ 0#32)) = .ok .rdPud := by decide
theorem test_decode_wrPud : decode (.bus (0b1#1 ++ 0b0000100101#10 ++ 5#32)) = .ok (.wrPud 5) := by decide
theorem test_decode_rdPudclk0 : decode (.bus (0b0#1 ++ 0b0000100110#10 ++ 0#32)) = .ok .rdPudclk0 := by decide
theorem test_decode_wrPudclk0 : decode (.bus (0b1#1 ++ 0b0000100110#10 ++ 5#32)) = .ok (.wrPudclk0 5) := by decide
theorem test_decode_rdPudclk1 : decode (.bus (0b0#1 ++ 0b0000100111#10 ++ 0#32)) = .ok .rdPudclk1 := by decide
theorem test_decode_wrPudclk1 : decode (.bus (0b1#1 ++ 0b0000100111#10 ++ 5#32)) = .ok (.wrPudclk1 5) := by decide
theorem test_decode_rdUnlisted : decode (.bus (0b0#1 ++ 0b0000000110#10 ++ 0#32)) = .ok (.rdUnlisted 6) := by decide
theorem test_decode_wrUnlisted : decode (.bus (0b1#1 ++ 0b0000101000#10 ++ 5#32)) = .ok (.wrUnlisted 40 5) := by decide

/-- The table's numbering: a command word, a micro-op in whole bytes, an 11-bit key. -/
theorem test_tableWord : decodeTableWord 64 0x3400000000000035 = some (.setPull 53 .down) ∧
    decodeTableWord 48 0x40700200000 = some (.writeReg 7 0x00200000) ∧ decodeTableWord 16 0x425 = some (.wrPud 0) ∧
    decodeTableWord 64 0x3C00000000000001 = none := by decide

/-- The word placed by `withFetchWord` is the next step's: a bus write of FSEL0, and an OUTPUT on a closed controller. -/
theorem test_withFetchWord :
    nextIs (step ((st kClosed rf21).withFetchWord 16 0x402)) (fun t => decide (t.rf.fsel[21] = 0)) = true ∧
      nextIs (step ((st kClosed rf0).withFetchWord 64 0x5100000000000015)) (fun t => rsp0 t == some 5) = true := by decide

/-! ## Operand forms (table IX, LE-1) -/

theorem test_pin_31 : fselIndex 31 = 3 ∧ fselShift 31 = 3 ∧ onehot 31 = 0x80000000#32 ∧ setIndex 31 = 7 ∧
    clrIndex 31 = 10 ∧ levIndex 31 = 13 ∧ pudclkIndex 31 = 38 := by decide
theorem test_pin_32 : fselIndex 32 = 3 ∧ fselShift 32 = 6 ∧ onehot 32 = 0x1#32 ∧ setIndex 32 = 8 ∧
    clrIndex 32 = 11 ∧ levIndex 32 = 14 ∧ pudclkIndex 32 = 39 := by decide
theorem test_littleEndian : wordByte 0x00000008 0 = 0x08 ∧ wordByte 0x00000008 1 = 0 ∧
    wordOfBytes 0x00 0x00 0x20 0x00 = 0x00200000 := by decide
/-- FS-1, FS-4, FS-7. -/
theorem test_replaceField : replaceField 0x00041000 (fselShift 5) .output = 0x00049000 ∧
    replaceField 0xFFFFFFFF (fselShift 9) .output = 0xCFFFFFFF ∧ replaceField 0x7 (fselShift 0) .output = 0x1 := by decide
theorem test_rspWord : rspWord .ok true = 0x100 ∧ rspWord .errAlreadyOpen false = 7 := by decide

/-! ## Bus transactions -/

/-- WR FSEL0 with the example word of R103. -/
theorem test_wrFsel0 : nextIs (exec (.wrFsel0 0x00049000) (st kOpen rf0)) (fun t =>
    t.rf.fsel[4] == 1 && t.rf.fsel[5] == 1 && t.rf.fsel[6] == 1 && t.rf.fsel[3] == 0 && t.rf.fsel[10] == 0) = true := by
  decide
/-- FS-9: WR FSEL5 of all ones. -/
theorem test_wrFsel5 : nextIs (exec (.wrFsel5 0xFFFFFFFF) (st kOpen rf0)) (fun t =>
    t.rf.fsel[50] == 7 && t.rf.fsel[53] == 7 && t.rf.fsel[49] == 0) = true := by decide
/-- RD FSEL2 with the example state of R102: the implemented bits. -/
theorem test_rdFsel2 : (fselWord rf21 2 0).toNat = 0x8 ∧ (fselWord rf21 5 0xFFFFFFFF).toNat = 0xFFFFF000 := by decide
/-- SC-5. -/
theorem test_wrSet0 : nextIs (exec (.wrSet0 3) (st kOpen rf0)) (fun t =>
    t.rf.latch[0] && t.rf.latch[1] && !t.rf.latch[2]) = true := by decide
/-- SC-6. -/
theorem test_wrSet0_zero : exec (.wrSet0 0) (st kOpen rf0) =
    .refused (.zeroSetClearWrite { st kOpen rf0 with refused := true }) := by rfl
theorem test_wrSet1 : nextIs (exec (.wrSet1 0x00200000) (st kOpen rf0)) (fun t => t.rf.latch[53]) = true := by decide
theorem test_wrClr0 : nextIs (exec (.wrClr0 0x00200000) (st kOpen rf21)) (fun t => !t.rf.latch[21]) = true := by decide
/-- SC-7. -/
theorem test_wrClr1_reserved : exec (.wrClr1 0x00400000) (st kOpen rf0) =
    .refused (.reservedBitWrite { st kOpen rf0 with refused := true }) := by rfl
/-- SC-8, SC-9, FS-10. -/
theorem test_refused_rdSet0 : exec .rdSet0 (st kOpen rf0) =
    .refused (.readOfWriteOnly { st kOpen rf0 with refused := true }) := by rfl
theorem test_refused_wrLev0 : exec (.wrLev0 1) (st kOpen rf0) =
    .refused (.writeToReadOnly { st kOpen rf0 with refused := true }) := by rfl
theorem test_refused_rdUnlisted : exec (.rdUnlisted 6) (st kOpen rf0) =
    .refused (.unlistedRegister { st kOpen rf0 with refused := true }) := by rfl
/-- The example of R109, with the environment's level of pin 40 High. -/
theorem test_rdLev0 : nextIs (exec .rdLev0 { st kOpen rf21 with levels := [0] }) (fun t =>
    t.rdata == 0x00200000 && t.levels.isEmpty) = true := by decide
theorem test_rdLev1 : nextIs (exec .rdLev1 { st kOpen rf21 with levels := [0x10000000000] }) (fun t =>
    t.rdata == 0x100) = true := by decide
theorem test_rdPud : (pudWord rfStrobe 0xFFFFFFF0).toNat = 0xFFFFFFF2 := by decide
/-- The example of R112, and PS-8: staging under an asserted clock. -/
theorem test_wrPud : nextIs (exec (.wrPud 2) (st kOpen rf0)) (fun t => t.rf.pud == 2 && t.rf.pull[3] == .off) = true ∧
    nextIs (exec (.wrPud 1) (st kOpen rfStrobe)) (fun t => t.rf.pull[3] == .indeterminate) = true := by decide
/-- PS-14: neutral under an asserted clock. -/
theorem test_wrPud_neutral : nextIs (exec (.wrPud 0) (st kOpen rfStrobe)) (fun t =>
    t.rf.pud == 0 && t.rf.pull[3] == .off) = true := by decide
/-- PS-12: a strobe of two pins from Idle. -/
theorem test_wrPudclk0 : nextIs (exec (.wrPudclk0 3) (st kOpen { rf0 with pud := 1 })) (fun t =>
    t.rf.pull[0] == .down && t.rf.pull[1] == .down && t.rf.clk[0] && t.rf.pull[2] == .off) = true := by decide
/-- PS-5: a strobe while another is asserted; PS-10: code 3. -/
theorem test_wrPudclk0_bad : nextIs (exec (.wrPudclk0 0x80) (st kOpen rfStrobe)) (fun t =>
    t.rf.pull[7] == .indeterminate && !t.rf.clk[3]) = true ∧
    nextIs (exec (.wrPudclk0 0x80) (st kOpen { rf0 with pud := 3 })) (fun t => t.rf.pull[7] == .indeterminate) = true := by
  decide
/-- R169, step 3, and PS-13. -/
theorem test_wrPudclk1 : nextIs (exec (.wrPudclk1 0x100) (st kOpen { rf0 with pud := 1 })) (fun t =>
    t.rf.pull[40] == .down && t.rf.clk[40]) = true := by decide
theorem test_wrPudclk1_reserved : exec (.wrPudclk1 0x00400000) (st kOpen rf0) =
    .refused (.reservedBitWrite { st kOpen rf0 with refused := true }) := by rfl

/-! ## Commands -/

/-- ER-6, ER-4, ER-5, ER-3. -/
theorem test_open : nextIs (exec .openCmd { st kClosed rf0 with opens := [.ok] }) (fun t => rsp0 t == some 0 &&
    (t.ctrls[0]?.map Ctrl.isOpen) == some true) = true ∧
    nextIs (exec .openCmd { st kClosed rf0 with opens := [.openFail] }) (fun t => rsp0 t == some 1) = true := by decide
theorem test_open_fails : nextIs (exec .openCmd { st kClosed rf0 with opens := [.mapFail] }) (fun t => rsp0 t == some 2 &&
    (t.ctrls[0]?.map Ctrl.isOpen) == some false) = true ∧
    nextIs (exec .openCmd (st kOpen rf0)) (fun t => rsp0 t == some 7) = true := by decide
/-- P1 command 5, ER-2. -/
theorem test_close : nextIs (exec .closeCmd (st kOpen rf0)) (fun t => rsp0 t == some 0 &&
    (t.ctrls[0]?.map Ctrl.isOpen) == some false) = true ∧
    nextIs (exec .closeCmd (st kClosed rf0)) (fun t => rsp0 t == some 5) = true := by decide
/-- PS-4, step 2: the reserved bits read are written back and ignored. -/
theorem test_setPull_stage : nextIs (microStep (st (kBusy (.setPull 7 .up) 2 0xABCD0001) rf0)) (fun t =>
    t.rf.pud == 2 && (t.ctrls[0]?.map Ctrl.step) == some 3) = true := by decide
/-- ER-8, and R169's last step: the strobe released, the command ended. -/
theorem test_setPull_ends : nextIs (exec (.setPull 54 .up) (st kOpen rf0)) (fun t => rsp0 t == some 4) = true ∧
    nextIs (microStep (st (kBusy (.setPull 7 .up) 6 0) rfStrobe)) (fun t => !t.rf.clk[3] && rsp0 t == some 0 &&
      (t.ctrls[0]?.map Ctrl.step) == some 0) = true := by decide
/-- FS-1: SETUP step 8. -/
theorem test_setup_field : nextIs (microStep (st (kBusy (.setup 5 .output .off) 8 0x00041000) rf0)) (fun t =>
    t.rf.fsel[4] == 1 && t.rf.fsel[5] == 1 && t.rf.fsel[6] == 1 && t.rf.fsel[7] == 0 && rsp0 t == some 0) = true := by
  decide
/-- R169: SETUP step 3 is the strobe of its pin. -/
theorem test_setup_strobe : nextIs (microStep (st (kBusy (.setup 40 .input .down) 3 0) { rf0 with pud := 1 })) (fun t =>
    t.rf.pull[40] == .down && t.rf.clk[40] && t.rf.pull[8] == .off) = true := by decide
/-- SC-1, SC-4. -/
theorem test_output : nextIs (exec (.output 21 .high) (st kOpen rf0)) (fun t => t.rf.latch[21] && rsp0 t == some 0) = true ∧
    nextIs (exec (.output 31 .low) (st kOpen { rf0 with latch := pinTable fun _ => true })) (fun t =>
      !t.rf.latch[31] && t.rf.latch[30]) = true := by decide
/-- UA-1, UA-2, UA-3, ER-14. -/
theorem test_output_unchecked : nextIs (exec (.output 960 .high) (stU kOpen rf0)) (fun t => t.rf.pud == 1) = true ∧
    nextIs (exec (.output 992 .high) (stU kOpen rf0)) (fun t => t.rf.clk[0] && t.rf.pull[0] == .off) = true ∧
    nextIs (exec (.output 32544 .high) (stU kOpen rf0)) (fun t => rsp0 t == some 3) = true := by decide
/-- IN-1, IN-3. -/
theorem test_input : nextIs (exec (.input 21) { st kOpen rf21 with levels := [0] }) (fun t => rsp0 t == some 0x100) = true ∧
    nextIs (exec (.input 40) { st kOpen rf0 with levels := [0x10000000000] }) (fun t => rsp0 t == some 0x100) = true := by
  decide
/-- ER-9, ER-16. -/
theorem test_input_errors : nextIs (exec (.input 54) (st kClosed rf0)) (fun t => rsp0 t == some 5) = true ∧
    nextIs (exec (.input 32352) (stU kOpen rf0)) (fun t => rsp0 t == some 3) = true := by decide
/-- R146's bound. -/
theorem test_readReg : nextIs (exec (.readReg 1288) (st kOpen rf0)) (fun t => rsp0 t == some 3) = true ∧
    nextIs (exec (.readReg 13) { st kOpen rf21 with levels := [0] }) (fun t =>
      (t.ctrls[0]?.map Ctrl.t) == some 0x00200000) = true := by decide
/-- The example of R147. -/
theorem test_writeReg : nextIs (exec (.writeReg 7 0x00200000) (st kOpen rf0)) (fun t => t.rf.latch[21]) = true := by decide
/-- A closed controller reaches no register (R37, R51, R232: "touches nothing"). -/
theorem test_rawAccess_closed :
    nextIs (exec (.writeReg 7 0x00200000) (st kClosed rf0)) (fun t => rsp0 t == some 5 && !t.rf.latch[21]) = true ∧
    nextIs (exec (.readReg 1288) (st kClosed rf0)) (fun t => rsp0 t == some 5) = true := by decide
/-- ER-10: an illegal word, even when closed. -/
theorem test_issue_illegal : nextIs (step (st { kClosed with pending := [0x7000000000000000] } rf0)) (fun t =>
    rsp0 t == some 6 && (t.ctrls[0]?.map Ctrl.pending) == some []) = true := by decide
theorem test_reset : nextIs (step (turns (st kOpen rfStrobe) [.reset])) (fun t => t.rf.pud == 0 && !t.rf.clk[3] &&
    (t.ctrls[0]?.map Ctrl.isOpen) == some false) = true := by decide

/-! ## Witnesses: the hypotheses of each statement are met, at the boundaries of its clauses -/

theorem test_witness_DecodeOfEncode : WellFormed (.readReg 1023) = true ∧ WellFormed (.writeReg 1023 0) = true ∧
    WellFormed (.rdUnlisted 6) = true ∧ WellFormed (.wrUnlisted 1023 0) = true ∧ WellFormed .openCmd = true := by decide
theorem test_witness_CommandDecodeIsStrict : decodeCmd 0x3800000000000007#64 = .ok (.setPull 7 .up) := by decide
theorem test_witness_BusKeyMap : ∀ i ∈ [6#10, 9#10, 12#10, 15#10, 36#10, 40#10, 1023#10],
    ¬ (i.toNat ≤ 5 ∨ i.toNat = 7 ∨ i.toNat = 8 ∨ i.toNat = 10 ∨ i.toNat = 11 ∨ i.toNat = 13 ∨ i.toNat = 14 ∨
      i.toNat = 37 ∨ i.toNat = 38 ∨ i.toNat = 39) := by decide
theorem test_witness_PinIndexTable : (31 : Pin).val < 32 ∧ 32 ≤ (32 : Pin).val ∧ 32 ≤ (53 : Pin).val := by decide
theorem test_witness_ResetTurn : (turns (st kOpen rf0) [.reset]).refused = false ∧
    (turns (st kOpen rf0) [.reset]).sched = .reset :: [] := by decide
theorem test_witness_StepRunsDecodedCommand :
    let s := turns (st (kWord 0x5100000000000015) rf0) [.run 0]
    s.refused = false ∧ s.sched = .run 0 :: [] ∧ s.ctrls[0]? = some (kWord 0x5100000000000015) ∧
      (kWord 0x5100000000000015).cmd = none ∧ (kWord 0x5100000000000015).pending = 0x5100000000000015 :: [] ∧
      decodeCmd 0x5100000000000015 = .ok (.output 21 .high) := by decide
theorem test_witness_StepRunsDecodedTransaction : (turns (st kOpen rf0) [.bus 0]).sched = .bus 0 :: [] ∧
    (turns (st kOpen rf0) [.uop 0 0]).sched = .uop 0 0 :: [] ∧ decodeUop 0 = .ok (.readReg 0) ∧
    (turns (st kOpen rf0) [.foreign ⟨true, 32, 4092, 0⟩]).sched = .foreign ⟨true, 32, 4092, 0⟩ :: [] ∧ 4092 % 4 = 0 ∧
    (turns (st kOpen rf0) [.bus 0]).refused = false := by decide
/-- A byte access, a misaligned word at the window's end, and one that is both. -/
theorem test_witness_ForeignAccessRefused :
    step (turns (st kOpen rf0) [.foreign ⟨false, 8, 0, 0⟩]) =
      .refused (.subWordAccess { st kOpen rf0 with refused := true }) ∧
    step (turns (st kOpen rf0) [.foreign ⟨true, 32, 4093, 0⟩]) =
      .refused (.misaligned { st kOpen rf0 with refused := true }) ∧
    step (turns (st kOpen rf0) [.foreign ⟨true, 64, 2, 0⟩]) =
      .refused (.subWordAccess { st kOpen rf0 with refused := true }) := ⟨rfl, rfl, rfl⟩
theorem test_witness_IssueStep :
    let s := turns (st (kWord 0x5100000000000015) rf0) [.ctrl 0]
    s.refused = false ∧ s.sched = .ctrl 0 :: [] ∧ s.ctrls[0]? = some (kWord 0x5100000000000015) ∧
      decodeCmd 0x5100000000000015 = .ok (.output 21 .high) ∧
      commandOf (.output 21 .high) = some (.output 21 .high) := by decide
theorem test_witness_IssueStep_illegal : (kWord 0).pending = 0 :: [] ∧ ∀ i, decodeCmd 0 ≠ .ok i := by
  refine ⟨rfl, fun i h => ?_⟩
  cases h
theorem test_witness_MicroOpStep :
    let s := turns (st (kBusy (.output 53 .high) 1 0) rf0) [.ctrl 0]
    s.refused = false ∧ s.sched = .ctrl 0 :: [] ∧ s.ctrls[0]? = some (kBusy (.output 53 .high) 1 0) ∧
      microOp (.output 53 .high) 1 0 = some (.write 8 0x00200000) ∧
      nextIs (exec (.writeReg 8 0x00200000) { s with sched := [], cur := 0 }) (fun _ => true) = true := by decide
theorem test_witness_MicroOpStep_read :
    microOp (.input 32) 1 0 = some (.read 14) ∧
      nextIs (exec (.readReg 14) (st (kBusy (.input 32) 1 0) rf0)) (fun _ => true) = true := by decide
/-- A closed controller at a raw access, which no sound state has. -/
theorem test_witness_MicroOpStep_closed :
    let k := { kBusy (.output 53 .high) 1 0 with isOpen := false }
    let s := turns (st k rf0) [.ctrl 0]
    s.refused = false ∧ s.sched = .ctrl 0 :: [] ∧ s.ctrls[0]? = some k ∧ k.cmd = some (.output 53 .high) ∧
      microOp (.output 53 .high) k.step k.t = some (.write 8 0x00200000) := by decide
theorem test_witness_ErrorEndsCommand :
    (st (kBusy (.input 54) 0 0) rf0).actor? = some (kBusy (.input 54) 0 0) ∧
      microOp (.input 54) 0 0 = some (.entry 54) ∧
      performMicro (.entry 54) (st (kBusy (.input 54) 0 0) rf0) =
        .next (st (kBusy (.input 54) 0 0) rf0, some .errInvalidPin) := ⟨rfl, rfl, rfl⟩
/-- All idle; and a second controller that is the first able to move. -/
theorem test_witness_IdleBlockWaits : (st kOpen rf0).refused = false ∧ (st kOpen rf0).sched = [] ∧
    (∀ k ∈ (st kOpen rf0).ctrls, k.cmd = none ∧ k.pending = []) ∧
    ({ st kOpen rf0 with ctrls := [kOpen, kWord 0, kBusy .openCmd 0 0] } : State).ctrls[1]? = some (kWord 0) ∧
    (kWord 0).pending ≠ [] ∧ (kBusy .openCmd 0 0).cmd ≠ none := by decide
theorem test_witness_RefusedStateIsStuck : ({ st kOpen rf0 with refused := true } : State).refused = true := rfl
theorem test_witness_WholeCommandIsItsSteps :
    let s := turns (st (kWord 0x5100000000000015) rf0) [.run 0]
    s.refused = false ∧ s.ctrls[0]? = some (kWord 0x5100000000000015) ∧
      nextIs (step s) (fun _ => true) = true := by decide
theorem test_witness_OpenResult : (st kOpen rf0).IdleActor kOpen ∧ kOpen.isOpen = true ∧
    (st kClosed rf0).IdleActor kClosed ∧ kClosed.isOpen = false := ⟨⟨rfl, rfl⟩, rfl, ⟨rfl, rfl⟩, rfl⟩
/-- The three outcomes of the environment. -/
theorem test_witness_OpenResult_outcomes : ({ st kClosed rf0 with opens := [.ok] } : State).nextOpen = .ok ∧
    ({ st kClosed rf0 with opens := [.openFail] } : State).nextOpen = .openFail ∧
    ({ st kClosed rf0 with opens := [.mapFail] } : State).nextOpen = .mapFail := by decide
theorem test_witness_CloseResult : (st kClosed rf0).IdleActor kClosed ∧ kClosed.isOpen = false ∧
    (st kOpen rf0).IdleActor kOpen ∧ kOpen.isOpen = true := ⟨⟨rfl, rfl⟩, rfl, ⟨rfl, rfl⟩, rfl⟩
theorem test_witness_OwnershipRule : (∃ t, exec .closeCmd (st kOpen rf0) = .next t) ∧
    ∃ t, exec (.wrPud 2) (st kOpen rf0) = .next t := ⟨⟨_, rfl⟩, ⟨_, rfl⟩⟩
theorem test_witness_EntryErrors : (st kClosed rf0).IdleActor kClosed ∧ kClosed.isOpen = false ∧
    (st kOpen rf0).IdleActor kOpen ∧ kOpen.isOpen = true ∧ (st kOpen rf0).pinCheck = .checked ∧ 54 ≤ (54#32).toNat ∧
    Instr.input 54 ∈ [Instr.setPull 54 .up, .setup 54 .input .up, .output 54 .low, .input 54] :=
  ⟨⟨rfl, rfl⟩, rfl, ⟨rfl, rfl⟩, rfl, rfl, by decide, by decide⟩
theorem test_witness_BusyPortFaults : (st (kBusy .openCmd 0 0) rf0).actor? = some (kBusy .openCmd 0 0) ∧
    (kBusy .openCmd 0 0).cmd ≠ none ∧ (commandOf .closeCmd).isSome = true := by decide
theorem test_witness_PullSequenceBoundsError : (stU kOpen rf0).IdleActor kOpen ∧ kOpen.isOpen = true ∧
    (stU kOpen rf0).pinCheck = .unchecked ∧ 31552 ≤ (31552#32).toNat := ⟨⟨rfl, rfl⟩, rfl, rfl, by decide⟩
/-- The boundary pins of the two refusals: 54, 63, 64, 31551. -/
theorem test_witness_PullSequenceRefusedBeyondPins : (stU kOpen rf0).IdleActor kOpen ∧ kOpen.isOpen = true ∧
    (stU kOpen rf0).pinCheck = .unchecked ∧ 54 ≤ (54#32).toNat ∧ (63#32).toNat < 64 ∧
    64 ≤ (64#32).toNat ∧ (31551#32).toNat < 31552 :=
  ⟨⟨rfl, rfl⟩, rfl, rfl, by decide, by decide, by decide, by decide⟩
theorem test_seqIdle : rf0.SeqIdle := ⟨rfl, fun p => pinTable_pin _ p⟩
/-- Pins at both ends of both banks; an idle bank, an asserted one, and a clean start. -/
theorem test_witness_SetPullResult : (st kOpen rf0).IdleActor kOpen ∧ kOpen.isOpen = true ∧
    (31#32).toNat < 54 ∧ (53#32).toNat < 54 ∧ (st kOpen rf0).rf.SeqIdle ∧ rf0.BankIdle 1 ∧
    ¬ rfStrobe.BankIdle 0 := by
  refine ⟨⟨rfl, rfl⟩, rfl, by decide, by decide, test_seqIdle, fun p _ => pinTable_pin _ p, fun h => ?_⟩
  exact absurd (h 3 (by decide)) (by decide)
theorem test_witness_SetupResult : (st kOpen rf0).IdleActor kOpen ∧ kOpen.isOpen = true ∧ (53#32).toNat < 54 :=
  ⟨⟨rfl, rfl⟩, rfl, by decide⟩
theorem test_witness_SetupPullBeforeDirection :
    (st (kBusy (.setup 53 .output .up) 7 0) rf0).actor? = some (kBusy (.setup 53 .output .up) 7 0) ∧ (53#32).toNat < 54 ∧
      nextIs (microStep (st (kBusy (.setup 53 .output .up) 7 0) rf0)) (fun _ => true) = true ∧
      nextIs (microStep (st (kBusy (.setup 53 .output .up) 8 0) rf0)) (fun _ => true) = true := by decide
theorem test_witness_OutputResult : (st kOpen rf0).IdleActor kOpen ∧ kOpen.isOpen = true ∧ (31#32).toNat < 54 :=
  ⟨⟨rfl, rfl⟩, rfl, by decide⟩
/-- Index 1023 is refused, index 1024 an error (ER-17, ER-14), and pin 96 answers (UA-1). -/
theorem test_witness_OutputIsOneWrite : (stU kOpen rf0).IdleActor kOpen ∧ kOpen.isOpen = true ∧
    (stU kOpen rf0).pinCheck = .unchecked ∧ 7 + (32543#32).toNat / 32 = 1023 ∧ 7 + (32544#32).toNat / 32 = 1024 ∧
    (∃ u, busWrite 10 (onehot 96) (stU kOpen rf0) = .next u) ∧
    ∀ u, busWrite 1023 (onehot 32543) (stU kOpen rf0) ≠ .next u := by
  refine ⟨⟨rfl, rfl⟩, rfl, rfl, by decide, by decide, ⟨_, rfl⟩, fun u h => ?_⟩
  cases h
theorem test_witness_UncheckedOutputAliases : (stU kOpen rfStrobe).IdleActor kOpen ∧ kOpen.isOpen = true ∧
    (stU kOpen rfStrobe).pinCheck = .unchecked ∧ (stU kOpen rfStrobe).rf.clk[3] = true := ⟨⟨rfl, rfl⟩, rfl, rfl, by decide⟩
theorem test_witness_InputResult : (st kOpen rf21).IdleActor kOpen ∧ kOpen.isOpen = true ∧ (21#32).toNat < 54 :=
  ⟨⟨rfl, rfl⟩, rfl, by decide⟩
theorem test_witness_InputIsOneRead : (stU kOpen rf0).IdleActor kOpen ∧ kOpen.isOpen = true ∧
    (stU kOpen rf0).pinCheck = .unchecked ∧ 13 + (32351#32).toNat / 32 = 1023 ∧ 13 + (32352#32).toNat / 32 = 1024 ∧
    (∃ u, busRead 37 (stU kOpen rf0) = .next u) ∧ ∀ u, busRead 1023 (stU kOpen rf0) ≠ .next u := by
  refine ⟨⟨rfl, rfl⟩, rfl, rfl, by decide, by decide, ⟨_, rfl⟩, fun u h => ?_⟩
  cases h
theorem test_witness_LoopbackReadsHigh : (st kOpen rf0).IdleActor kOpen ∧ kOpen.isOpen = true ∧ (21#32).toNat < 54 :=
  ⟨⟨rfl, rfl⟩, rfl, by decide⟩
/-- The indices where the clauses of READ_REG and WRITE_REG meet. -/
theorem test_witness_RawAccess : (st kOpen rf0).actor? = some kOpen ∧ kOpen.isOpen = true ∧
    (st kClosed rf0).actor? = some kClosed ∧ kClosed.isOpen = false ∧
    (∀ i ∈ [6, 9, 12, 15, 36, 40, 1023], i < 1024 ∧ listedWord i = false) ∧
    ∀ i ∈ [5, 7, 8, 10, 11, 13, 14, 37, 38, 39], listedWord i = true := by decide
theorem test_witness_FselWriteBackUnchanged : ∃ t, exec (.readReg 5) (st kOpen rf0) = .next t := ⟨_, rfl⟩
/-- The three clauses of a latch write, in bank 1 at the lowest reserved bit and the highest pin. -/
theorem test_witness_LatchWrites : (0x00400000#32).extractLsb' 22 10 ≠ 0 ∧ 0x00400000#32 ≠ 0#32 ∧
    (0x003FFFFF#32).extractLsb' 22 10 = 0 ∧ 0x003FFFFF#32 ≠ 0#32 := by decide
theorem test_witness_LaterLatchWriteWins : (0x80000000#32).getLsbD ((31 : Pin).val % 32) = true ∧
    (0x1#32).getLsbD ((32 : Pin).val % 32) = true ∧ (∃ t, exec (.wrSet0 0x80000000) (st kOpen rf0) = .next t) ∧
    ∃ t, exec (.wrClr1 0x1) (st kOpen rf0) = .next t := ⟨by decide, by decide, ⟨_, rfl⟩, ⟨_, rfl⟩⟩
theorem test_witness_IdempotentWrites : (∃ t, exec (.wrSet0 1) (st kOpen rf0) = .next t) ∧
    (st kOpen rf0).rf.NoStrobe ∧ ∃ t, exec (.wrPud 3) (st kOpen rf0) = .next t :=
  ⟨⟨_, rfl⟩, test_seqIdle.2, ⟨_, rfl⟩⟩
theorem test_witness_RefusedTransactions : listedWord (6#10).toNat = false := by decide
/-- A sound state with a command in flight past ENTRY, whose step answers. -/
theorem test_witness_StepKeepsSound : (st (kBusy (.output 53 .high) 1 0) rf0).Sound ∧
    ∃ t, step (st (kBusy (.output 53 .high) 1 0) rf0) = .next t := by
  refine ⟨fun k hk => ?_, ⟨_, rfl⟩⟩
  rw [show (st (kBusy (.output 53 .high) 1 0) rf0).ctrls = [kBusy (.output 53 .high) 1 0] from rfl,
    List.mem_singleton] at hk
  subst hk
  exact ⟨by decide, rfl, fun _ => ⟨rfl, fun _ => by decide⟩⟩
/-- The sole checked use in the middle of a pull latch sequence: step 4 of `set_pull 3, up`. -/
theorem test_witness_CheckedSoleUseIsSafe : (st (kBusy (.setPull 3 .up) 4 0) rfStrobe).SoloChecked := by
  refine ⟨rfl, rfl, ⟨_, rfl, ⟨by decide, rfl, fun _ => ⟨rfl, fun _ => by decide⟩⟩, rfl, fun p => pinTable_pin _ p⟩, ?_⟩
  intro t ht
  cases ht
/-- A state of two sound controllers, pins unchecked, nine turns of the second at step 0 of a SETUP. -/
theorem test_witness_CommandEndsWithinNineSteps_sound :
    let k := kBusy (.setup 53 .output .up) 0 0
    let s := { stU kOpen rfStrobe with ctrls := [kOpen, k], sched := List.replicate 9 (Turn.ctrl 1) ++ [] }
    s.Sound ∧ s.refused = false ∧ s.ctrls[1]? = some k ∧ k.cmd ≠ none := by
  refine ⟨fun k hk => ?_, rfl, rfl, by decide⟩
  rcases List.mem_cons.mp hk with rfl | hk
  · exact rfl
  · rw [List.mem_singleton.mp hk]
    exact ⟨by decide, rfl, fun h => absurd h (by decide)⟩
/-- Nine turns of a controller with turns of another and of another bus master between them, which run through. -/
theorem test_witness_CommandEndsWithinNineSteps_interleaved :
    let k := kBusy (.output 21 .high) 0 0
    let l : List Turn := .ctrl 1 :: .bus (0b1#1 ++ 37#10 ++ 2#32) :: .ctrl 0 :: List.replicate 8 (Turn.ctrl 1)
    let s := { st kOpen rf0 with ctrls := [kOpen, k], sched := l ++ [] }
    s.ctrls[1]? = some k ∧ k.cmd ≠ none ∧ 9 ≤ l.count (.ctrl 1) ∧
      nextIs (steps l.length s) (fun _ => true) = true := by decide
theorem test_witness_CommandEndsWithinNineSteps : (st (kBusy (.setup 53 .output .up) 0 0) rf0).SoloChecked ∧
    (st (kBusy (.setup 53 .output .up) 0 0) rf0).sched = [] ∧ (kBusy (.setup 53 .output .up) 0 0).cmd ≠ none := by
  refine ⟨⟨rfl, rfl, ⟨_, rfl, ⟨by decide, rfl, fun h => absurd h (by decide)⟩, test_seqIdle⟩, ?_⟩, rfl, by decide⟩
  intro t ht
  cases ht
theorem test_witness_StepKeepsParameters : ∃ t, step (st kOpen rf0) = .next t := ⟨_, rfl⟩
theorem test_witness_InstructionsActOnOneController : ∃ t, exec (.output 53 .low) (st kOpen rf0) = .next t := ⟨_, rfl⟩
theorem test_witness_PullStateIsUnobservable :
    (st kOpen rf0).erasePull = (st kOpen { rf0 with pull := pinTable fun _ => .up }).erasePull ∧ rf0.pull[0] ≠ .up :=
  ⟨rfl, by decide⟩
theorem test_witness_DrawsNeverReachRegisterFile : nextIs (exec (.input 21) (st kOpen rf21)) (fun _ => true) = true ∧
    nextIs (exec (.input 21) { st kOpen rf21 with draws := 9, opens := [], levels := [1] }) (fun _ => true) = true := by
  decide
theorem test_witness_TemporaryNotObserved : (commandOf (.input 21)).isSome = true ∧
    nextIs (exec (.input 21) (st kOpen rf21)) (fun _ => true) = true := by decide
/-- P5 at its last two steps. -/
theorem test_witness_LostUpdate :
    let k0 := kBusy (.setup 4 .output .off) 8 0
    let k1 := kBusy (.setup 5 .output .off) 8 0
    let s := { st k0 rf0 with ctrls := [k0, k1], sched := [.ctrl 0, .ctrl 1] }
    s.refused = false ∧ k0.isOpen = true ∧ k1.isOpen = true ∧ k1.t = k0.t ∧ (4#32).toNat / 10 = (5#32).toNat / 10 ∧ (4#32) ≠ 5#32 ∧
      nextIs (steps 2 s) (fun t => t.rf.fsel[4] == 0 && t.rf.fsel[5] == 1) = true := by decide

end Sys2Proof.Tests
end

section
/-! Proofs of the statements of 00_scope.md: the pin-index helpers of R13 on the two banks (O7), and the refusal mark of R14
and R41 (O17). -/

namespace Sys2Proof.Machine

/-! ## The two banks of pins -/

/-- Pins 0 to 31 are bank 0 (R13). -/
theorem bank_of_lt {p : Nat} (h : p < 32) : bank p = 0 := Nat.div_eq_of_lt h

/-- Pins 32 to 63, the valid ones among them, are bank 1 (R13). -/
theorem bank_of_ge {p : Nat} (h : 32 ≤ p) (hp : p < 64) : bank p = 1 := Nat.div_eq_of_lt_le (by omega) (by omega)

/-- In bank 0 a pin is served by the bit of its own number (R117). -/
theorem bitOf_of_lt {p : Nat} (h : p < 32) : bitOf p = p := Nat.mod_eq_of_lt h

/-- In bank 1 a pin's bit counts from pin 32 (R117). -/
theorem bitOf_of_ge {p : Nat} (h : 32 ≤ p) (hp : p < 64) : bitOf p = p - 32 := by
  rw [bitOf, Nat.mod_eq_sub_mod h, Nat.mod_eq_of_lt (by omega)]

/-- Ten pins share a select register (R117). -/
theorem fselIndex_eq_div (p : Nat) : fselIndex p = p / 10 := Nat.zero_add _

/-- A pin's field in its select register is three bits wide (R117). -/
theorem fselShift_eq_mul_mod (p : Nat) : fselShift p = 3 * (p % 10) := Nat.mul_comm _ _

/-- Settles O7: each index is its register's base plus the pin's bank, which is 0 below pin 32 and 1 from there on. -/
theorem pinIndexTable : Obligations.PinIndexTable := by
  intro p
  refine ⟨fun h => ?bank0, fun h => ?bank1, fselIndex_eq_div p, fselShift_eq_mul_mod p⟩
  case bank0 =>
    simp [setIndex, clrIndex, levIndex, pudclkIndex, bank_of_lt h, bitOf_of_lt h]
  case bank1 =>
    have hp : p.val < 64 := p.isLt.trans (by decide)
    simp [setIndex, clrIndex, levIndex, pudclkIndex, bank_of_ge h hp, bitOf_of_ge h hp]

/-! ## The refusal mark -/

/-- An answer that is already known is the step's answer. -/
theorem step_of_fetch_done {s : State} {o : Result} (h : fetch s = .done o) : step s = o := by
  simp [step, h]

/-- The mark is looked at before the schedule, so that no turn, a reset among them, is fetched (R41). -/
theorem fetch_of_refused {s : State} (h : s.refused = true) : fetch s = .done (.refused (.alreadyRefused s)) :=
  if_pos h

/-- A refused state is not the end of a run (R41, R240). -/
theorem not_final_of_refused {s : State} (h : s.refused = true) : ¬ s.Final := by
  rintro ⟨hclear, -⟩
  simp [h] at hclear

/-- Settles O17: `fetch` answers a refusal before it looks at the schedule, and `Final` asks for a clear mark. -/
theorem refusedStateIsStuck : Obligations.RefusedStateIsStuck := fun _ h =>
  ⟨step_of_fetch_done (fetch_of_refused h), not_final_of_refused h⟩

end Sys2Proof.Machine
end

section
/-! Lemmas for the statements of 10_state.md: what each instruction does in terms of the shared operations, what one step
of the machine can do, and the induction over both for a property of states (`Kept`). -/

namespace Sys2Proof.Machine

/-! ## What an instruction does -/

/-- The micro-ops of OPEN and CLOSE, the only ones that open or close a controller (R144). -/
def MicroOp.IsWindow : MicroOp → Prop
  | .openWindow | .closeWindow => True
  | .entry _ | .read _ | .write _ _ => False

/-- What an instruction does, in terms of the shared operations. -/
inductive Meaning (i : Instr) : Prop
  | command (c : Command) (h : ∀ s, exec i s = runCommand c s)
  | raw (op : MicroOp) (hop : ¬ op.IsWindow) (h : ∀ s, exec i s = settleError (performMicro op s))
  | read (n : Nat) (h : ∀ s, exec i s = busRead n s)
  | write (n : Nat) (v : Word) (h : ∀ s, exec i s = busWrite n v s)

/-- Every instruction is a command, a raw access, or the bus access of its word (R91). An unlisted word is refused whatever
its index, as index 6 is. -/
theorem exec_meaning (i : Instr) : Meaning i :=
  match i with
  | .openCmd => .command .openCmd fun _ => rfl
  | .closeCmd => .command .closeCmd fun _ => rfl
  | .setPull pin mode => .command (.setPull pin mode) fun _ => rfl
  | .setup pin dir mode => .command (.setup pin dir mode) fun _ => rfl
  | .output pin level => .command (.output pin level) fun _ => rfl
  | .input pin => .command (.input pin) fun _ => rfl
  | .readReg n => .raw (.read n) id fun _ => rfl
  | .writeReg n v => .raw (.write n v) id fun _ => rfl
  | .rdFsel0 => .read 0 fun _ => rfl
  | .wrFsel0 v => .write 0 v fun _ => rfl
  | .rdFsel1 => .read 1 fun _ => rfl
  | .wrFsel1 v => .write 1 v fun _ => rfl
  | .rdFsel2 => .read 2 fun _ => rfl
  | .wrFsel2 v => .write 2 v fun _ => rfl
  | .rdFsel3 => .read 3 fun _ => rfl
  | .wrFsel3 v => .write 3 v fun _ => rfl
  | .rdFsel4 => .read 4 fun _ => rfl
  | .wrFsel4 v => .write 4 v fun _ => rfl
  | .rdFsel5 => .read 5 fun _ => rfl
  | .wrFsel5 v => .write 5 v fun _ => rfl
  | .rdSet0 => .read 7 fun _ => rfl
  | .wrSet0 v => .write 7 v fun _ => rfl
  | .rdSet1 => .read 8 fun _ => rfl
  | .wrSet1 v => .write 8 v fun _ => rfl
  | .rdClr0 => .read 10 fun _ => rfl
  | .wrClr0 v => .write 10 v fun _ => rfl
  | .rdClr1 => .read 11 fun _ => rfl
  | .wrClr1 v => .write 11 v fun _ => rfl
  | .rdLev0 => .read 13 fun _ => rfl
  | .wrLev0 v => .write 13 v fun _ => rfl
  | .rdLev1 => .read 14 fun _ => rfl
  | .wrLev1 v => .write 14 v fun _ => rfl
  | .rdPud => .read 37 fun _ => rfl
  | .wrPud v => .write 37 v fun _ => rfl
  | .rdPudclk0 => .read 38 fun _ => rfl
  | .wrPudclk0 v => .write 38 v fun _ => rfl
  | .rdPudclk1 => .read 39 fun _ => rfl
  | .wrPudclk1 v => .write 39 v fun _ => rfl
  | .rdUnlisted _ => .read 6 fun _ => rfl
  | .wrUnlisted _ v => .write 6 v fun _ => rfl

/-! ## What a step does -/

/-- What one step can do with the state `u` in which a turn has set who acts (R140, R61): wait; make one micro-op step, or
all of them to the end; answer the next word of the acting controller's host, accepted or rejected or run whole; perform an
access that is no command; reset. -/
inductive Move (u : State) : State → Prop
  | wait : Move u u
  | micro {t : State} (h : microStep u = .next t) : Move u t
  | toEnd {t : State} (h : runToEnd 9 u = .next t) : Move u t
  | accept {t : State} (ws : List (BitVec 64)) (c : Command) (h : acceptCommand c (u.withPending ws) = .next t) : Move u t
  | reject {t : State} (ws : List (BitVec 64)) (h : rejectCommand (u.withPending ws) = .next t) : Move u t
  | command {t : State} (ws : List (BitVec 64)) (i : Instr) (h : exec i (u.withPending ws) = .next t) : Move u t
  | access {t : State} (i : Instr) (h : exec i u = .next t) : Move u t
  | reset : Move u (resetBlock u)

/-- The answer to what was fetched. -/
def Fetched.result : Fetched → Result
  | .run i s => exec i s
  | .done o => o

/-- A step answers what it fetched. -/
theorem step_eq_result (s : State) : step s = (fetch s).result := by
  unfold step
  cases fetch s <;> rfl

/-- A fetched word is accepted or rejected (R140, R205). -/
theorem issueWord_cases {w : BitVec 64} {s t : State} (h : issueWord w s = .next t) :
    rejectCommand s = .next t ∨ ∃ c, acceptCommand c s = .next t := by
  unfold issueWord at h
  split at h
  · exact .inl h
  · split at h
    · exact .inl h
    · exact .inr ⟨_, h⟩

theorem move_fetchCtrl {u t : State} (h : (fetchCtrl u).result = .next t) : Move u t := by
  unfold fetchCtrl at h
  split at h
  · cases h
  · split at h
    · exact .micro h
    · split at h
      · cases h; exact .wait
      · rcases issueWord_cases h with h | ⟨c, h⟩
        · exact .reject _ h
        · exact .accept _ c h

theorem move_fetchRun {u t : State} (h : (fetchRun u).result = .next t) : Move u t := by
  unfold fetchRun at h
  split at h
  · cases h
  · split at h
    · exact .toEnd h
    · split at h
      · cases h; exact .wait
      · split at h
        · exact .reject _ h
        · exact .command _ _ h

theorem move_fetchForeign {a : ForeignAccess} {u t : State} (h : (fetchForeign a u).result = .next t) : Move u t := by
  unfold fetchForeign at h
  split at h
  · cases h
  · split at h
    · cases h
    · split at h
      · cases h
      · exact .access _ h

/-- A turn moves the state in which it has set who acts. -/
theorem move_fetchTurn {a : Turn} {s t : State} (h : (fetchTurn a s).result = .next t) :
    ∃ c, Move { s with cur := c } t := by
  cases a with
  | ctrl c => exact ⟨c, move_fetchCtrl h⟩
  | run c => exact ⟨c, move_fetchRun h⟩
  | uop c w =>
    refine ⟨c, ?_⟩
    simp only [fetchTurn] at h
    split at h
    · cases h
    · exact .access _ h
  | bus w => exact ⟨s.cur, .access _ h⟩
  | foreign a => exact ⟨s.cur, move_fetchForeign h⟩
  | reset => cases h; exact ⟨s.cur, .reset⟩

/-- All a step can do when it answers: the state was not refused, and it moves once a turn has set who acts. -/
theorem step_cases {s t : State} (h : step s = .next t) :
    s.refused = false ∧ ∃ c rest, Move { s with cur := c, sched := rest } t := by
  rw [step_eq_result] at h
  unfold fetch at h
  split at h
  · cases h
  · rename_i hr
    refine ⟨by simpa using hr, ?_⟩
    split at h
    · obtain ⟨c, m⟩ := move_fetchTurn h
      exact ⟨c, _, m⟩
    · split at h
      · cases h; exact ⟨s.cur, s.sched, .wait⟩
      · obtain ⟨c, m⟩ := move_fetchTurn h
        exact ⟨c, s.sched, m⟩

/-! ## The induction over steps -/

/-- A property of states that every shared operation keeps. -/
structure Kept (P : State → Prop) : Prop where
  turn : ∀ s c rest, P s → P { s with cur := c, sched := rest }
  pending : ∀ s ws, P s → P (s.withPending ws)
  accept : ∀ c s t, P s → acceptCommand c s = .next t → P t
  reject : ∀ s t, P s → rejectCommand s = .next t → P t
  micro : ∀ s t, P s → microStep s = .next t → P t
  raw : ∀ op s t, ¬ op.IsWindow → P s → settleError (performMicro op s) = .next t → P t
  read : ∀ n s t, P s → busRead n s = .next t → P t
  write : ∀ n v s t, P s → busWrite n v s = .next t → P t
  reset : ∀ s, P s → P (resetBlock s)

/-- An instruction keeps what every shared operation keeps. -/
theorem Kept.exec {P : State → Prop} (k : Kept P) {i : Instr} {s t : State} (hs : P s) (h : exec i s = .next t) : P t := by
  obtain ⟨c, e⟩ | ⟨op, hop, e⟩ | ⟨n, e⟩ | ⟨n, v, e⟩ := exec_meaning i
  all_goals rw [e] at h
  · exact runCommand_keeps (k.accept c) k.micro hs h
  · exact k.raw op s t hop hs h
  · exact k.read n s t hs h
  · exact k.write n v s t hs h

/-- A step keeps what every shared operation keeps. -/
theorem Kept.step {P : State → Prop} (k : Kept P) {s t : State} (hs : P s) (h : step s = .next t) : P t := by
  obtain ⟨-, c, rest, m⟩ := step_cases h
  have hu := k.turn s c rest hs
  cases m with
  | wait => exact hu
  | micro h => exact k.micro _ _ hu h
  | toEnd h => exact runToEnd_keeps k.micro 9 _ _ hu h
  | accept ws c h => exact k.accept c _ _ (k.pending _ ws hu) h
  | reject ws h => exact k.reject _ _ (k.pending _ ws hu) h
  | command ws i h => exact k.exec (k.pending _ ws hu) h
  | access i h => exact k.exec hu h
  | reset => exact k.reset _ hu

end Sys2Proof.Machine
end

section
/-! Proofs of the statements of 10_state.md about the controllers: their sequencing stays sound (O51, R37, R38, R140). -/

namespace Sys2Proof.Machine

/-! ## Which micro-op a program has at a step -/

theorem pullOp_not_window {pin : BitVec 32} {mode : PullMode} {n : Nat} {t : Word} {op : MicroOp}
    (h : pullOp pin mode n t = some op) : ¬ op.IsWindow := by
  unfold pullOp at h
  split at h <;> cases h <;> exact id

/-- Only OPEN and CLOSE, whose programs have one step, open or close a controller (R142 to R144). -/
theorem programLength_of_window {c : Command} {n : Nat} {t : Word} {op : MicroOp} (h : microOp c n t = some op)
    (hw : op.IsWindow) : programLength c = 1 := by
  cases c with
  | openCmd => rfl
  | closeCmd => rfl
  | setPull pin mode =>
    simp only [microOp, setPullOp] at h
    split at h
    · cases h; exact hw.elim
    · exact absurd hw (pullOp_not_window h)
  | setup pin dir mode =>
    simp only [microOp, setupOp] at h
    split at h
    · cases h; exact hw.elim
    · cases h; exact hw.elim
    · cases h; exact hw.elim
    · exact absurd hw (pullOp_not_window h)
  | output pin level =>
    simp only [microOp, outputOp] at h
    split at h
    · cases h; exact hw.elim
    · split at h <;> cases h <;> exact hw.elim
    · cases h
  | input pin =>
    simp only [microOp, inputOp] at h
    split at h <;> cases h <;> exact hw.elim

theorem programLength_pos (c : Command) : 0 < programLength c := by
  cases c <;> exact Nat.succ_pos _

/-- At step 0 the program of OPEN and of CLOSE, which has no further step, has its own micro-op, and every other program
the entry check of its pin (R141 to R143). -/
theorem microOp_zero_cases {c : Command} {t : Word} {op : MicroOp} (h : microOp c 0 t = some op) :
    programLength c = 1 ∨ ∃ pin, op = .entry pin ∧
      ∀ pc, (pc = .checked → pin.toNat < 54) → pinAllowed pc c := by
  cases c <;> cases h
  case openCmd => exact .inl rfl
  case closeCmd => exact .inl rfl
  all_goals exact .inr ⟨_, rfl, fun _ hp => hp⟩

/-- ENTRY passes only on an open controller with an allowed pin (R141). -/
theorem entryError_eq_none {pc : PinCheck} {k : Ctrl} {pin : BitVec 32} (h : entryError pc k pin = none) :
    k.isOpen = true ∧ (pc = .checked → pin.toNat < 54) := by
  unfold entryError at h
  split at h
  · cases h
  · split at h
    · cases h
    · rename_i ho hp
      exact ⟨by simpa using ho, fun hc => Nat.lt_of_not_le fun hle => hp ⟨hc, hle⟩⟩

/-! ## What a micro-op does to the acting controller -/

/-- Two controllers at the same step of the same command, with the same response or none. -/
structure SameCommand (k k' : Ctrl) : Prop where
  cmd : k'.cmd = k.cmd
  step : k'.step = k.step
  rsp : k'.rsp = k.rsp

/-- A micro-op changes no controller but the acting one, leaves that one at its step, and opens or closes it only if it is
OPEN's or CLOSE's own (R144). -/
theorem performMicro_ctrls {op : MicroOp} {s : State} {r : State × Option Status} (h : performMicro op s = .next r) :
    ∃ f : Ctrl → Ctrl, r.1.ctrls = s.ctrls.modify s.cur f ∧ (∀ k, SameCommand k (f k)) ∧
      (¬ op.IsWindow → ∀ k, (f k).isOpen = k.isOpen) := by
  have unchanged : ∃ f : Ctrl → Ctrl, s.ctrls = s.ctrls.modify s.cur f ∧ (∀ k, SameCommand k (f k)) ∧
      (¬ op.IsWindow → ∀ k, (f k).isOpen = k.isOpen) :=
    ⟨id, by simp, fun _ => ⟨rfl, rfl, rfl⟩, fun _ _ => rfl⟩
  cases op with
  | entry pin =>
    obtain ⟨k, -, h⟩ := withActor_eq_next h
    cases h
    exact unchanged
  | openWindow =>
    obtain ⟨k, -, h⟩ := withActor_eq_next h
    split at h <;> cases h
    · exact unchanged
    · exact ⟨_, rfl, fun _ => ⟨rfl, rfl, rfl⟩, fun hw => absurd trivial hw⟩
  | closeWindow =>
    obtain ⟨k, -, h⟩ := withActor_eq_next h
    split at h <;> cases h
    · exact ⟨_, rfl, fun _ => ⟨rfl, rfl, rfl⟩, fun hw => absurd trivial hw⟩
    · exact unchanged
  | read i =>
    obtain ⟨k, -, ⟨s', -, h1, rfl⟩ | ⟨e, -, rfl⟩⟩ := readReg_cases h
    · obtain ⟨hctrls, -, -, hcur, -, -⟩ := busRead_frame h1
      exact ⟨fun k => k.setT s'.rdata, by simp [hctrls, hcur], fun _ => ⟨rfl, rfl, rfl⟩, fun _ _ => rfl⟩
    · exact unchanged
  | write i v =>
    obtain ⟨k, -, ⟨s', -, h1, rfl⟩ | ⟨e, -, rfl⟩⟩ := writeReg_cases h
    · obtain ⟨rf, rfl⟩ := busWrite_frame h1
      exact unchanged
    · exact unchanged

/-- After a micro-op the acting controller is at the same step, and as open as before if the micro-op is not OPEN's or
CLOSE's own (R144). -/
theorem performMicro_actor {op : MicroOp} {s : State} {r : State × Option Status} {k : Ctrl} (hk : s.actor? = some k)
    (h : performMicro op s = .next r) :
    ∃ k', r.1.actor? = some k' ∧ SameCommand k k' ∧ (¬ op.IsWindow → k'.isOpen = k.isOpen) := by
  obtain ⟨f, hctrls, hsame, hopen⟩ := performMicro_ctrls h
  obtain ⟨-, -, hcur, -, -⟩ := quiet_performMicro h
  have hactor : r.1.actor? = s.actor?.map f := by simp [State.actor?, hctrls, hcur]
  exact ⟨f k, by rw [hactor, hk, Option.map_some], hsame k, fun hw => hopen hw k⟩

/-- The end of a micro-op step ends the command or, without an error and before the program's last step, advances. -/
theorem concludeMicro_cases (c : Command) (n : Nat) (e : Option Status) (s : State) :
    (∃ st b, concludeMicro c n e s = endCommand st b s) ∨
      (e = none ∧ n + 1 ≠ programLength c ∧ concludeMicro c n e s = s.modifyActor Ctrl.advance) := by
  unfold concludeMicro
  split
  · exact .inl ⟨_, _, rfl⟩
  · rename_i h
    obtain ⟨hlast, herr⟩ := not_or.mp h
    exact .inr ⟨by simpa using herr, hlast, rfl⟩

/-! ## Sound sequencing of one controller -/

theorem Ctrl.sound_idle {pc : PinCheck} {k : Ctrl} (h : k.cmd = none) : k.Sound pc ↔ k.step = 0 := by
  simp [Ctrl.Sound, h]

theorem Ctrl.sound_busy {pc : PinCheck} {k : Ctrl} {c : Command} (h : k.cmd = some c) :
    k.Sound pc ↔
      k.step < programLength c ∧ k.rsp = none ∧ (0 < k.step → k.isOpen = true ∧ pinAllowed pc c) := by
  simp [Ctrl.Sound, h]

theorem Ctrl.sound_accept (pc : PinCheck) (k : Ctrl) (c : Command) : (k.accept c).Sound pc :=
  (Ctrl.sound_busy rfl).mpr ⟨programLength_pos c, rfl, fun h => absurd h (Nat.lt_irrefl 0)⟩

/-- Sound sequencing does not look at the temporary or the waiting words, and at step 0 not at whether it is open. -/
theorem Ctrl.Sound.sameCommand {pc : PinCheck} {k k' : Ctrl} (h : k.Sound pc) (g : SameCommand k k')
    (ho : 0 < k.step → k'.isOpen = k.isOpen) : k'.Sound pc := by
  cases hc : k.cmd with
  | none =>
    rw [Ctrl.sound_idle (g.cmd.trans hc), g.step]
    exact (Ctrl.sound_idle hc).mp h
  | some c =>
    obtain ⟨hlt, hrsp, hpast⟩ := (Ctrl.sound_busy hc).mp h
    rw [Ctrl.sound_busy (g.cmd.trans hc), g.step, g.rsp]
    exact ⟨hlt, hrsp, fun hpos => by rw [ho hpos]; exact hpast hpos⟩

/-- Where a program opens or closes its controller, it stands at its only step (R142, R143). -/
theorem step_of_window {pc : PinCheck} {k : Ctrl} {c : Command} {op : MicroOp} (h : k.Sound pc) (hc : k.cmd = some c)
    (ho : microOp c k.step k.t = some op) (hw : op.IsWindow) : k.step = 0 ∧ programLength c = 1 := by
  obtain ⟨hlt, -, -⟩ := (Ctrl.sound_busy hc).mp h
  have hone := programLength_of_window ho hw
  exact ⟨by omega, hone⟩

/-- A controller that passed ENTRY, and is not at its program's last step, advances soundly. -/
theorem Ctrl.Sound.advance {pc : PinCheck} {k : Ctrl} {c : Command} (h : k.Sound pc) (hc : k.cmd = some c)
    (hl : k.step + 1 ≠ programLength c) (hp : k.isOpen = true ∧ pinAllowed pc c) : k.advance.Sound pc := by
  obtain ⟨hlt, hrsp, -⟩ := (Ctrl.sound_busy hc).mp h
  exact (Ctrl.sound_busy (k := k.advance) hc).mpr ⟨Nat.lt_of_le_of_ne hlt hl, hrsp, fun _ => hp⟩

/-! ## Sound sequencing of all controllers -/

theorem State.Sound.actor {s : State} {k : Ctrl} (h : s.Sound) (hk : s.actor? = some k) : k.Sound s.pinCheck :=
  h k (List.mem_of_getElem? hk)

/-- Sequencing stays sound when the acting controller alone changes, to a sound one. -/
theorem State.Sound.modify {s t : State} {f : Ctrl → Ctrl} (h : s.Sound) (hp : t.pinCheck = s.pinCheck)
    (ht : t.ctrls = s.ctrls.modify s.cur f) (hf : ∀ k, s.actor? = some k → (f k).Sound s.pinCheck) : t.Sound := by
  intro k' hk'
  rw [ht] at hk'
  rw [hp]
  obtain ⟨c, hc⟩ := List.mem_iff_getElem?.mp hk'
  rw [List.getElem?_modify] at hc
  obtain ⟨k, hk, rfl⟩ := Option.map_eq_some_iff.mp hc
  split
  · next hcur => exact hf k (by rw [State.actor?, hcur, hk])
  · exact h k (List.mem_of_getElem? hk)

theorem sound_endCommand {s : State} (h : s.Sound) (st : Status) (b : Bool) : (endCommand st b s).Sound :=
  h.modify rfl rfl fun _ _ => (Ctrl.sound_idle rfl).mpr rfl

/-- A micro-op keeps sequencing sound, if one that opens or closes stands at step 0 (R141 to R144). -/
theorem sound_performMicro {op : MicroOp} {s : State} {r : State × Option Status} (hs : s.Sound)
    (hop : ∀ k, s.actor? = some k → 0 < k.step → ¬ op.IsWindow) (h : performMicro op s = .next r) : r.1.Sound := by
  obtain ⟨f, hctrls, hsame, hopen⟩ := performMicro_ctrls h
  obtain ⟨-, hpin, -⟩ := quiet_performMicro h
  exact hs.modify hpin hctrls fun k hk => (hs.actor hk).sameCommand (hsame k) fun hpos => hopen (hop k hk hpos) k

/-- After the micro-op of a program that raised no error and was not the last, the acting controller is open and its pin
allowed: ENTRY has just checked it, or it was so before (R141). -/
theorem passed_of_performMicro {s : State} {k k' : Ctrl} {c : Command} {op : MicroOp} {r : State × Option Status}
    (hs : s.Sound) (hk : s.actor? = some k) (hc : k.cmd = some c) (ho : microOp c k.step k.t = some op)
    (hr : performMicro op s = .next r) (he : r.2 = none) (hl : k.step + 1 ≠ programLength c)
    (hk' : r.1.actor? = some k') :
    k'.cmd = some c ∧ k'.step + 1 ≠ programLength c ∧ k'.isOpen = true ∧ pinAllowed r.1.pinCheck c := by
  have hwindow : ¬ op.IsWindow := fun hw => by
    obtain ⟨hzero, hone⟩ := step_of_window (hs.actor hk) hc ho hw
    omega
  obtain ⟨-, hpin, -⟩ := quiet_performMicro hr
  obtain ⟨_, hact, hsame, hopen⟩ := performMicro_actor hk hr
  cases hact.symm.trans hk'
  have passed : k.isOpen = true ∧ pinAllowed s.pinCheck c := by
    obtain hzero | hpos := Nat.eq_zero_or_pos k.step
    · rw [hzero] at ho hl
      obtain hone | ⟨pin, rfl, hallowed⟩ := microOp_zero_cases ho
      · exact absurd hone.symm hl
      · rw [performMicro, withActor_some hk] at hr
        cases hr
        obtain ⟨hentered, hvalid⟩ := entryError_eq_none he
        exact ⟨hentered, hallowed _ hvalid⟩
    · obtain ⟨-, -, hpast⟩ := (Ctrl.sound_busy hc).mp (hs.actor hk)
      exact hpast hpos
  rw [hopen hwindow, hpin, hsame.cmd, hsame.step]
  exact ⟨hc, hl, passed⟩

/-- A micro-op step keeps sequencing sound (R38, R140). -/
theorem sound_microStep {s t : State} (hs : s.Sound) (h : microStep s = .next t) : t.Sound := by
  obtain ⟨k, hk, ⟨-, rfl⟩ | ⟨c, op, r, hc, ho, hr, rfl⟩⟩ := microStep_cases h
  · exact hs
  have hwindow : 0 < k.step → ¬ op.IsWindow := fun hpos hw =>
    Nat.ne_of_gt hpos (step_of_window (hs.actor hk) hc ho hw).1
  have hsr : r.1.Sound := sound_performMicro hs (fun k' hk' => by cases hk.symm.trans hk'; exact hwindow) hr
  obtain ⟨st, b, e⟩ | ⟨herr, hl, e⟩ := concludeMicro_cases c k.step r.2 r.1
  · rw [e]
    exact sound_endCommand hsr st b
  · rw [e]
    refine hsr.modify rfl rfl fun k' hk' => ?_
    obtain ⟨hc', hl', hp⟩ := passed_of_performMicro hs hk hc ho hr herr hl hk'
    exact (hsr.actor hk').advance hc' hl' hp

/-! ## Every step -/

theorem sound_settleError {o : MicroResult} {t : State} (ho : ∀ r, o = .next r → r.1.Sound)
    (h : settleError o = .next t) : t.Sound := by
  obtain ⟨⟨u, e⟩, h1, h2⟩ := andThen_eq_next h
  cases h2
  cases e with
  | none => exact ho _ h1
  | some st => exact sound_endCommand (ho _ h1) st false

/-- After a reset each controller is as `Ctrl.reset` makes it (R44, R230). -/
theorem mem_resetCtrls {n c : Nat} {ks : List Ctrl} {k : Ctrl} (h : k ∈ resetCtrls n c ks) :
    ∃ c' ws, k = Ctrl.reset n c' ws := by
  induction ks generalizing c with
  | nil => cases h
  | cons k₀ ks ih =>
    cases h with
    | head => exact ⟨c, k₀.pending, rfl⟩
    | tail _ h => exact ih h

/-- A controller just reset is idle at step 0 (R44). -/
theorem Ctrl.sound_reset (pc : PinCheck) (n c : Nat) (ws : List (BitVec 64)) : (Ctrl.reset n c ws).Sound pc :=
  (Ctrl.sound_idle rfl).mpr rfl

/-- Every shared operation keeps sequencing sound. -/
theorem kept_sound : Kept State.Sound where
  turn _ _ _ hs := hs
  pending _ _ hs := hs.modify rfl rfl fun _ hk => (hs.actor hk).sameCommand ⟨rfl, rfl, rfl⟩ fun _ => rfl
  accept c s t hs h := by
    obtain ⟨k, -, -, rfl⟩ := acceptCommand_cases h
    exact hs.modify rfl rfl fun k _ => k.sound_accept s.pinCheck c
  reject s t hs h := by
    obtain ⟨k, hk, hc, rfl⟩ := rejectCommand_cases h
    refine hs.modify rfl rfl fun k' hk' => ?_
    cases hk.symm.trans hk'
    exact (Ctrl.sound_idle (k := k.reject _) hc).mpr ((Ctrl.sound_idle hc).mp (hs.actor hk))
  micro _ _ hs h := sound_microStep hs h
  raw _ _ _ hop hs h := sound_settleError (fun _ hr => sound_performMicro hs (fun _ _ _ => hop) hr) h
  read _ s t hs h := by
    obtain ⟨hctrls, -, hpin, -⟩ := busRead_frame h
    exact hs.modify (f := id) hpin (by simp [hctrls]) fun _ hk => hs.actor hk
  write _ _ s t hs h := by
    obtain ⟨rf, rfl⟩ := busWrite_frame h
    exact hs
  reset s _ k hk := by
    obtain ⟨c, ws, rfl⟩ := mem_resetCtrls hk
    exact Ctrl.sound_reset _ _ c ws

/-- Settles O51: whoever moves, a step is made of shared operations, each of which keeps sequencing sound. -/
theorem stepKeepsSound : Obligations.StepKeepsSound := fun _ _ hs h => kept_sound.step hs h

end Sys2Proof.Machine
end

section
/-! Proofs of the statements of 10_state.md about the parameters and about reset: no step changes the parameters (O55, R41,
R42), and what reset leaves (O8, O53, R44, R45). -/

namespace Sys2Proof.Machine

/-! ## The parameters -/

/-- The parameters have these values (R6, R42) and the refusal mark is clear. -/
def ParametersAre (pc : PinCheck) (n : Nat) (s : State) : Prop :=
  s.pinCheck = pc ∧ s.ctrls.length = n ∧ s.refused = false

/-- What leaves the mark and the parameter alone, and the number of controllers, keeps the parameters. -/
theorem ParametersAre.quiet {pc : PinCheck} {n : Nat} {s t : State} (h : ParametersAre pc n s) (q : Quiet s t)
    (hlen : t.ctrls.length = s.ctrls.length) : ParametersAre pc n t := by
  obtain ⟨hpin, hnum, hclear⟩ := h
  obtain ⟨hrefused, hcheck, -⟩ := q
  exact ⟨hcheck.trans hpin, hlen.trans hnum, hrefused.trans hclear⟩

theorem length_performMicro {op : MicroOp} {s : State} {r : State × Option Status} (h : performMicro op s = .next r) :
    r.1.ctrls.length = s.ctrls.length := by
  obtain ⟨f, hctrls, -⟩ := performMicro_ctrls h
  rw [hctrls, List.length_modify]

theorem length_endCommand (st : Status) (b : Bool) (s : State) :
    (endCommand st b s).ctrls.length = s.ctrls.length :=
  List.length_modify _ _ _

theorem length_microStep {s t : State} (h : microStep s = .next t) : t.ctrls.length = s.ctrls.length := by
  obtain ⟨k, -, ⟨-, rfl⟩ | ⟨c, op, r, -, -, hr, rfl⟩⟩ := microStep_cases h
  · rfl
  · rw [← length_performMicro hr]
    obtain ⟨st, b, e⟩ | ⟨-, -, e⟩ := concludeMicro_cases c k.step r.2 r.1
    · rw [e, length_endCommand]
    · rw [e, State.modifyActor_length]

theorem length_settleError {o : MicroResult} {n : Nat} {t : State} (ho : ∀ r, o = .next r → r.1.ctrls.length = n)
    (h : settleError o = .next t) : t.ctrls.length = n := by
  obtain ⟨⟨u, e⟩, h1, h2⟩ := andThen_eq_next h
  cases h2
  cases e with
  | none => exact ho _ h1
  | some st => exact (length_endCommand st false u).trans (ho _ h1)

/-- A reset keeps the number of controllers (R230). -/
theorem length_resetCtrls (n c : Nat) (ks : List Ctrl) : (resetCtrls n c ks).length = ks.length := by
  induction ks generalizing c with
  | nil => rfl
  | cons k ks ih => rw [resetCtrls, List.length_cons, ih, List.length_cons]

/-- Every shared operation keeps the parameters and answers no refused state. -/
theorem kept_parameters (pc : PinCheck) (n : Nat) : Kept (ParametersAre pc n) where
  turn _ _ _ hs := hs
  pending _ _ hs := hs.quiet (quiet_modifyActor _ _) (State.modifyActor_length _ _)
  accept c s t hs h := by
    obtain ⟨k, -, -, rfl⟩ := acceptCommand_cases h
    exact hs.quiet (quiet_modifyActor _ _) (State.modifyActor_length _ _)
  reject s t hs h := by
    obtain ⟨k, -, -, rfl⟩ := rejectCommand_cases h
    exact hs.quiet (quiet_modifyActor _ _) (State.modifyActor_length _ _)
  micro _ _ hs h := hs.quiet (quiet_microStep h) (length_microStep h)
  raw _ _ _ _ hs h :=
    hs.quiet (quiet_settleError (fun _ => quiet_performMicro) h) (length_settleError (fun _ => length_performMicro) h)
  read _ s t hs h := by
    obtain ⟨hctrls, -⟩ := busRead_frame h
    exact hs.quiet (quiet_busRead h) (by rw [hctrls])
  write _ _ s t hs h := by
    obtain ⟨rf, rfl⟩ := busWrite_frame h
    exact hs
  reset s hs := by
    obtain ⟨hpin, hnum, -⟩ := hs
    exact ⟨hpin, (length_resetCtrls _ _ _).trans hnum, rfl⟩

/-- Settles O55: a step starts from a state whose mark is clear, and no shared operation sets it or changes a parameter. -/
theorem stepKeepsParameters : Obligations.StepKeepsParameters := fun s _ h =>
  (kept_parameters s.pinCheck s.ctrls.length).step ⟨rfl, rfl, (step_cases h).1⟩ h

/-! ## Reset -/

@[simp] theorem RegFile.reset_fsel (n : Nat) (p : Pin) : (RegFile.reset n).fsel[p] = Config.resetFsel n p :=
  pinTable_pin _ p

@[simp] theorem RegFile.reset_latch (n : Nat) (p : Pin) : (RegFile.reset n).latch[p] = Config.resetLatch n p :=
  pinTable_pin _ p

@[simp] theorem RegFile.reset_pull (n : Nat) (p : Pin) : (RegFile.reset n).pull[p] = Config.resetPull n p :=
  pinTable_pin _ p

/-- No pull clock is asserted after a reset (R44). -/
theorem RegFile.reset_noStrobe (n : Nat) : (RegFile.reset n).NoStrobe := fun p => pinTable_pin _ p

/-- The pull sequencer is idle after a reset (R45). -/
theorem RegFile.reset_seqIdle (n : Nat) : (RegFile.reset n).SeqIdle := ⟨rfl, RegFile.reset_noStrobe n⟩

/-- The controllers of the reset state are as `Ctrl.reset` makes them (R44). -/
theorem mem_resetWith {pc : PinCheck} {n : Nat} {k : Ctrl} (h : k ∈ (State.resetWith pc n).ctrls) :
    ∃ c, k = Ctrl.reset 0 c [] := by
  obtain ⟨c, -, rfl⟩ := List.mem_map.mp h
  exact ⟨c, rfl⟩

theorem sound_resetWith (pc : PinCheck) (n : Nat) : (State.resetWith pc n).Sound := by
  intro k hk
  obtain ⟨c, rfl⟩ := mem_resetWith hk
  exact Ctrl.sound_reset pc 0 c []

/-- Settles O8: every pin table of the reset state is made from the draws of its pin, and its one controller by
`Ctrl.reset`. -/
theorem resetState : Obligations.ResetState := by
  refine ⟨rfl, RegFile.reset_noStrobe 0, rfl, fun k hk => ?_, rfl,
    fun p => ⟨RegFile.reset_fsel 0 p, RegFile.reset_latch 0 p, RegFile.reset_pull 0 p⟩⟩
  obtain ⟨c, rfl⟩ := mem_resetWith hk
  exact ⟨rfl, rfl, rfl⟩

/-- Settles O53: the reset state's controllers are idle at step 0 and its pull sequencer is idle; by default it has one
controller, and nothing is scheduled. -/
theorem resetMeetsInvariants : Obligations.ResetMeetsInvariants := by
  refine ⟨fun pc n => ⟨sound_resetWith pc n, RegFile.reset_seqIdle 0⟩, fun ws => ?_⟩
  exact ⟨rfl, rfl, ⟨Ctrl.reset 0 0 ws, rfl, Ctrl.sound_reset _ 0 0 ws, RegFile.reset_seqIdle 0⟩, nofun⟩

end Sys2Proof.Machine
end

section
/-! Proofs of the statements of 10_state.md about what cannot be observed: pull states (O57, R33, R43) and the temporary
between commands (O59, R39). -/

namespace Sys2Proof.Machine

/-! ## Two runs side by side -/

/-- Two outcomes alike: next states related by `R`, the same fault, or two refusals. -/
inductive Alike {α : Type} (R : α → α → Prop) :
    Host.Outcome α Fault Refusal → Host.Outcome α Fault Refusal → Prop
  | next {a b : α} (h : R a b) : Alike R (.next a) (.next b)
  | fault (f : Fault) : Alike R (.fault f) (.fault f)
  | refused (r r' : Refusal) : Alike R (.refused r) (.refused r')

theorem alike_andThen {α β : Type} {R : α → α → Prop} {S : β → β → Prop} {o o' : Host.Outcome α Fault Refusal}
    {f g : α → Host.Outcome β Fault Refusal} (h : Alike R o o') (hf : ∀ a b, R a b → Alike S (f a) (g b)) :
    Alike S (andThen o f) (andThen o' g) := by
  cases h with
  | next h => exact hf _ _ h
  | fault f => exact .fault f
  | refused r r' => exact .refused r r'

/-- Two states with the same acting controller are alike when the runs of that controller are. -/
theorem alike_withActor {α : Type} {R : α → α → Prop} {s s' : State} {f g : Ctrl → Host.Outcome α Fault Refusal}
    (ha : s'.actor? = s.actor?) (hf : ∀ k, Alike R (f k) (g k)) : Alike R (withActor s f) (withActor s' g) := by
  unfold withActor
  rw [ha]
  cases s.actor? with
  | none => exact .fault _
  | some k => exact hf k

/-! ## Pull states -/

/-- The state with other pull states. -/
def State.withPull (s : State) (u : Vector PullState 54) : State := s.withRf { s.rf with pull := u }

/-- Two states that differ in pull states only. -/
def PullsApart (s s' : State) : Prop := ∃ u, s' = s.withPull u

/-- Two answers of a micro-op that differ in pull states only, with the same error or none. -/
def MicroPullsApart (r r' : State × Option Status) : Prop := ∃ u, r' = (r.1.withPull u, r.2)

/-- Differing in pull states only is being one state once the pull states are forgotten. -/
theorem pullsApart_iff {s s' : State} : PullsApart s s' ↔ s.erasePull = s'.erasePull := by
  constructor
  · rintro ⟨u, rfl⟩
    rfl
  · intro h
    refine ⟨s'.rf.pull, ?_⟩
    calc s' = s'.erasePull.withPull s'.rf.pull := rfl
      _ = s.erasePull.withPull s'.rf.pull := by rw [h]
      _ = s.withPull s'.rf.pull := rfl

/-- No bus read looks at a pull state (R33). -/
theorem busRead_withPull (n : Nat) (s : State) (u : Vector PullState 54) :
    Alike PullsApart (busRead n s) (busRead n (s.withPull u)) := by
  unfold busRead
  split_ifs
  · exact .next ⟨u, rfl⟩
  · exact .refused _ _
  · exact .refused _ _
  · exact .next ⟨u, rfl⟩
  · exact .next ⟨u, rfl⟩
  · exact .refused _ _
  · exact .refused _ _

theorem writeLatches_withPull (n : Nat) (v : Word) (b : Bool) (s : State) (u : Vector PullState 54) :
    Alike PullsApart (writeLatches n v b s) (writeLatches n v b (s.withPull u)) := by
  unfold writeLatches
  split_ifs
  · exact .refused _ _
  · exact .refused _ _
  · exact .next ⟨u, rfl⟩

/-- What a strobe captures stands in the pull states alone (R161). -/
theorem writePudclk_withPull (n : Nat) (v : Word) (s : State) (u : Vector PullState 54) :
    Alike PullsApart (writePudclk n v s) (writePudclk n v (s.withPull u)) := by
  unfold writePudclk
  split_ifs
  · exact .refused _ _
  · exact .next ⟨_, rfl⟩

/-- No bus write looks at a pull state but to make pull states (R33). -/
theorem busWrite_withPull (n : Nat) (v : Word) (s : State) (u : Vector PullState 54) :
    Alike PullsApart (busWrite n v s) (busWrite n v (s.withPull u)) := by
  unfold busWrite
  split_ifs
  · exact .next ⟨u, rfl⟩
  · exact writeLatches_withPull (n - 7) v true s u
  · exact writeLatches_withPull (n - 10) v false s u
  · exact .refused _ _
  · exact .next ⟨_, rfl⟩
  · exact writePudclk_withPull (n - 38) v s u
  · exact .refused _ _

/-- No micro-op looks at a pull state (R33). -/
theorem performMicro_withPull (op : MicroOp) (s : State) (u : Vector PullState 54) :
    Alike MicroPullsApart (performMicro op s) (performMicro op (s.withPull u)) := by
  cases op with
  | entry pin => exact alike_withActor rfl fun k => .next ⟨u, rfl⟩
  | openWindow =>
    refine alike_withActor rfl fun k => ?_
    split_ifs <;> exact .next ⟨u, rfl⟩
  | closeWindow =>
    refine alike_withActor rfl fun k => ?_
    split_ifs <;> exact .next ⟨u, rfl⟩
  | read i =>
    refine alike_withActor rfl fun k => ?_
    cases rawError k i with
    | some e => exact .next ⟨u, rfl⟩
    | none =>
      refine alike_andThen (busRead_withPull i s u) ?_
      rintro a _ ⟨u', rfl⟩
      exact .next ⟨u', rfl⟩
  | write i v =>
    refine alike_withActor rfl fun k => ?_
    cases rawError k i with
    | some e => exact .next ⟨u, rfl⟩
    | none =>
      refine alike_andThen (busWrite_withPull i v s u) ?_
      rintro a _ ⟨u', rfl⟩
      exact .next ⟨u', rfl⟩

/-- Neither ending a command nor advancing looks at a pull state. -/
theorem concludeMicro_withPull (c : Command) (n : Nat) (e : Option Status) (s : State) (u : Vector PullState 54) :
    concludeMicro c n e (s.withPull u) = (concludeMicro c n e s).withPull u := by
  unfold concludeMicro
  split_ifs <;> rfl

theorem microStep_withPull (s : State) (u : Vector PullState 54) :
    Alike PullsApart (microStep s) (microStep (s.withPull u)) := by
  refine alike_withActor rfl fun k => ?_
  cases k.cmd with
  | none => exact .next ⟨u, rfl⟩
  | some c =>
    cases hop : microOp c k.step k.t with
    | none => simp only [hop]; exact .fault _
    | some op =>
      simp only [hop]
      refine alike_andThen (performMicro_withPull op s u) ?_
      rintro ⟨a, e⟩ _ ⟨u', rfl⟩
      exact .next ⟨u', concludeMicro_withPull c k.step e a u'⟩

theorem runToEnd_withPull (n : Nat) (s : State) (u : Vector PullState 54) :
    Alike PullsApart (runToEnd n s) (runToEnd n (s.withPull u)) := by
  induction n generalizing s u with
  | zero => exact .next ⟨u, rfl⟩
  | succ n ih =>
    refine alike_withActor rfl fun k => ?_
    cases k.cmd with
    | none => exact .next ⟨u, rfl⟩
    | some c =>
      refine alike_andThen (microStep_withPull s u) ?_
      rintro a _ ⟨u', rfl⟩
      exact ih a u'

theorem acceptCommand_withPull (c : Command) (s : State) (u : Vector PullState 54) :
    Alike PullsApart (acceptCommand c s) (acceptCommand c (s.withPull u)) := by
  refine alike_withActor rfl fun k => ?_
  split_ifs
  · exact .fault _
  · exact .next ⟨u, rfl⟩

theorem runCommand_withPull (c : Command) (s : State) (u : Vector PullState 54) :
    Alike PullsApart (runCommand c s) (runCommand c (s.withPull u)) := by
  refine alike_andThen (acceptCommand_withPull c s u) ?_
  rintro a _ ⟨u', rfl⟩
  exact runToEnd_withPull 9 a u'

theorem settleError_pullsApart {o o' : MicroResult} (h : Alike MicroPullsApart o o') :
    Alike PullsApart (settleError o) (settleError o') := by
  refine alike_andThen h ?_
  rintro ⟨a, e⟩ _ ⟨u, rfl⟩
  cases e <;> exact .next ⟨u, rfl⟩

/-- No instruction looks at a pull state (R33, R43). -/
theorem exec_withPull (i : Instr) (s : State) (u : Vector PullState 54) :
    Alike PullsApart (exec i s) (exec i (s.withPull u)) := by
  obtain ⟨c, e⟩ | ⟨op, -, e⟩ | ⟨n, e⟩ | ⟨n, v, e⟩ := exec_meaning i
  all_goals rw [e, e]
  · exact runCommand_withPull c s u
  · exact settleError_pullsApart (performMicro_withPull op s u)
  · exact busRead_withPull n s u
  · exact busWrite_withPull n v s u

/-- Settles O57: the second state is the first with other pull states, at which no instruction looks. -/
theorem pullStateIsUnobservable : Obligations.PullStateIsUnobservable := by
  intro i s s' h
  obtain ⟨u, rfl⟩ := pullsApart_iff.mpr h
  have halike := exec_withPull i s u
  generalize exec i s = o at halike ⊢
  generalize exec i (s.withPull u) = o' at halike ⊢
  cases halike with
  | next hapart => exact pullsApart_iff.mp hapart
  | fault f => exact rfl
  | refused r r' => exact trivial

end Sys2Proof.Machine
end

section
/-! Proof of the statement of 10_state.md about the temporary between commands (O59, R39): every program ends, or reads a
register into the temporary, before it looks at it. -/

namespace Sys2Proof.Machine

/-! ## The first two steps of a program -/

/-- At its first two steps no program looks at the temporary (R165, R180 to R182). -/
theorem microOp_ignores_t {c : Command} {n : Nat} (hn : n ≤ 1) (t t' : Word) : microOp c n t = microOp c n t' := by
  obtain rfl | rfl := Nat.le_one_iff_eq_zero_or_eq_one.mp hn <;> cases c <;> rfl

/-- A program that did not read at one of its first two steps is at its first or its last, and in the latter case answers
without a level (R89, R165, R180 to R182). -/
theorem microOp_le_one_cases {c : Command} {n : Nat} {t : Word} {op : MicroOp} (hn : n ≤ 1)
    (h : microOp c n t = some op) :
    (∃ i, op = .read i) ∨
      ((n = 0 ∨ n + 1 = programLength c) ∧ (n + 1 = programLength c → ∀ t', responseLevel c t' = false)) := by
  obtain rfl | rfl := Nat.le_one_iff_eq_zero_or_eq_one.mp hn
  · refine .inr ⟨.inl rfl, fun hl t' => ?_⟩
    cases c <;> cases hl <;> rfl
  · cases c with
    | openCmd => cases h
    | closeCmd => cases h
    | setPull pin mode => cases h; exact .inl ⟨_, rfl⟩
    | setup pin dir mode => cases h; exact .inl ⟨_, rfl⟩
    | output pin level => exact .inr ⟨.inr rfl, fun _ _ => rfl⟩
    | input pin => cases h; exact .inl ⟨_, rfl⟩

/-! ## One micro-op step with another temporary -/

/-- A bus read that answers, answers alike whatever the controllers are. -/
theorem busRead_modifyActor {n : Nat} {s t : State} (f : Ctrl → Ctrl) (h : busRead n s = .next t) :
    busRead n (s.modifyActor f) = .next (t.modifyActor f) := by
  unfold busRead at h ⊢
  split_ifs at h ⊢ <;> cases h <;> rfl

theorem busWrite_modifyActor {n : Nat} {v : Word} {s t : State} (f : Ctrl → Ctrl) (h : busWrite n v s = .next t) :
    busWrite n v (s.modifyActor f) = .next (t.modifyActor f) := by
  unfold busWrite writeSet writeClr writeLatches writePudclk at h ⊢
  split_ifs at h ⊢ <;> cases h <;> rfl

/-- The state whose acting controller has another temporary. -/
def State.withTemp (s : State) (v : Word) : State := s.modifyActor fun k => k.setT v

theorem State.withTemp_actor {s : State} {k : Ctrl} (hk : s.actor? = some k) (v : Word) :
    (s.withTemp v).actor? = some (k.setT v) := by
  simp [State.withTemp, hk]

/-- A change that keeps the temporary goes with another one. -/
theorem State.withTemp_modifyActor_comm (s : State) (v : Word) {f : Ctrl → Ctrl}
    (hf : ∀ k, f (k.setT v) = (f k).setT v) :
    (s.withTemp v).modifyActor f = (s.modifyActor f).withTemp v := by
  simp only [State.withTemp, State.modifyActor_modifyActor, hf]

/-- A change that overwrites the temporary leaves nothing of another one. -/
theorem State.withTemp_modifyActor_overwrite (s : State) (v : Word) {f : Ctrl → Ctrl} (hf : ∀ k, f (k.setT v) = f k) :
    (s.withTemp v).modifyActor f = s.modifyActor f := by
  simp only [State.withTemp, State.modifyActor_modifyActor, hf]

/-- A read that raises no error overwrites the temporary, and every other micro-op leaves it alone (R146). -/
theorem performMicro_withTemp {op : MicroOp} {s : State} {r : State × Option Status} (v : Word)
    (h : performMicro op s = .next r) :
    performMicro op (s.withTemp v) = .next r ∨
      (performMicro op (s.withTemp v) = .next (r.1.withTemp v, r.2) ∧ (r.2 = none → ∀ i, op ≠ .read i)) := by
  cases op with
  | entry pin =>
    obtain ⟨k, hk, h⟩ := withActor_eq_next h
    cases h
    exact .inr ⟨withActor_some (State.withTemp_actor hk v) _, fun _ => nofun⟩
  | openWindow =>
    obtain ⟨k, hk, h⟩ := withActor_eq_next h
    refine .inr ⟨(withActor_some (State.withTemp_actor hk v) _).trans ?_, fun _ => nofun⟩
    split at h
    next ho => cases h; exact if_pos ho
    next ho =>
      cases h
      rw [if_neg (by simpa using ho), ← s.dropOpen.withTemp_modifyActor_comm v fun _ => rfl]
      rfl
  | closeWindow =>
    obtain ⟨k, hk, h⟩ := withActor_eq_next h
    refine .inr ⟨(withActor_some (State.withTemp_actor hk v) _).trans ?_, fun _ => nofun⟩
    split at h
    next ho =>
      cases h
      rw [if_pos (by simpa using ho), s.withTemp_modifyActor_comm v fun _ => rfl]
    next ho => cases h; exact if_neg ho
  | read i =>
    obtain ⟨k, hk, ⟨s', he, hb, rfl⟩ | ⟨e, he, rfl⟩⟩ := readReg_cases h
    · left
      have hb' : busRead i (s.withTemp v) = .next (s'.withTemp v) := busRead_modifyActor _ hb
      rw [performMicro, readReg_next (State.withTemp_actor hk v) he hb', s'.withTemp_modifyActor_overwrite v fun _ => rfl]
      rfl
    · exact .inr ⟨readReg_error (State.withTemp_actor hk v) he, nofun⟩
  | write i w =>
    refine .inr ⟨?_, fun _ => nofun⟩
    obtain ⟨k, hk, ⟨s', he, hb, rfl⟩ | ⟨e, he, rfl⟩⟩ := writeReg_cases h
    · exact writeReg_next (State.withTemp_actor hk v) he (busWrite_modifyActor _ hb)
    · exact writeReg_error (State.withTemp_actor hk v) he

/-- The end of a command overwrites the temporary (R39). -/
theorem endCommand_withTemp (st : Status) (b : Bool) (s : State) (v : Word) :
    endCommand st b (s.withTemp v) = endCommand st b s :=
  congrArg State.draw (s.withTemp_modifyActor_overwrite v fun _ => rfl)

/-- After a micro-op step the temporary is overwritten, or the command goes on with it. -/
theorem concludeMicro_withTemp {c : Command} {n : Nat} {e : Option Status} {s : State} {k : Ctrl} (v : Word)
    (hk : s.actor? = some k) (hlevel : e = none → n + 1 = programLength c → ∀ t, responseLevel c t = false) :
    concludeMicro c n e (s.withTemp v) = concludeMicro c n e s ∨
      (e = none ∧ n + 1 ≠ programLength c ∧
        concludeMicro c n e (s.withTemp v) = (concludeMicro c n e s).withTemp v) := by
  cases e with
  | some st => exact .inl (by rw [concludeMicro_error, concludeMicro_error, endCommand_withTemp])
  | none =>
    by_cases hl : n + 1 = programLength c
    · left
      rw [concludeMicro_last hl _ hk, concludeMicro_last hl _ (State.withTemp_actor hk v), hlevel rfl hl,
        hlevel rfl hl, endCommand_withTemp]
    · refine .inr ⟨rfl, hl, ?_⟩
      rw [concludeMicro_advance hl, concludeMicro_advance hl, s.withTemp_modifyActor_comm v fun _ => rfl]

/-- At one of the first two steps of a command the temporary is overwritten, or it was the first step, and the command is
now at its second. -/
theorem microStep_withTemp {s t : State} {k : Ctrl} {c : Command} (v : Word) (hk : s.actor? = some k)
    (hc : k.cmd = some c) (hn : k.step ≤ 1) (h : microStep s = .next t) :
    microStep (s.withTemp v) = .next t ∨
      (k.step = 0 ∧ microStep (s.withTemp v) = .next (t.withTemp v) ∧
        ∃ k', t.actor? = some k' ∧ k'.cmd = some c ∧ k'.step = 1) := by
  obtain ⟨k₀, hk₀, ⟨hidle, -⟩ | ⟨c₀, op, r, hc₀, ho, hr, rfl⟩⟩ := microStep_cases h <;> cases hk.symm.trans hk₀
  · cases hidle.symm.trans hc
  cases hc.symm.trans hc₀
  obtain ⟨k', hk', hsame, -⟩ := performMicro_actor hk hr
  rw [microStep_eq (State.withTemp_actor hk v) hc ((microOp_ignores_t hn _ _).trans ho)]
  obtain hp | ⟨hp, hread⟩ := performMicro_withTemp v hr
  · exact .inl (by rw [hp, andThen_next, Ctrl.setT_step])
  rw [hp, andThen_next, Ctrl.setT_step]
  have hop : r.2 = none → (k.step = 0 ∨ k.step + 1 = programLength c) ∧
      (k.step + 1 = programLength c → ∀ t, responseLevel c t = false) := fun he =>
    (microOp_le_one_cases hn ho).resolve_left fun ⟨i, hi⟩ => hread he i hi
  obtain e | ⟨he, hl, e⟩ := concludeMicro_withTemp v hk' fun he => (hop he).2
  · exact .inl (by rw [e])
  · have hzero : k.step = 0 := (hop he).1.resolve_right hl
    refine .inr ⟨hzero, by rw [e], k'.advance, ?_, hsame.cmd.trans hc, ?_⟩
    · rw [he, concludeMicro_advance hl, State.modifyActor_actor, hk', Option.map_some]
    · rw [Ctrl.advance_step, hsame.step, hzero]

/-! ## A whole command with another temporary -/

/-- A command at one of its first two steps, with the fuel to make the second, ends alike with any temporary. -/
theorem runToEnd_withTemp {n : Nat} {s t : State} {k : Ctrl} {c : Command} (v : Word) (hk : s.actor? = some k)
    (hc : k.cmd = some c) (hstep : k.step ≤ 1) (hn : 2 ≤ n + k.step) (h : runToEnd n s = .next t) :
    runToEnd n (s.withTemp v) = .next t := by
  induction n generalizing s k with
  | zero => omega
  | succ n ih =>
    rw [runToEnd_succ hk hc] at h
    obtain ⟨u, hu, hrest⟩ := andThen_eq_next h
    rw [runToEnd_succ (State.withTemp_actor hk v) hc]
    obtain e | ⟨hzero, e, k', hk', hc', hone⟩ := microStep_withTemp v hk hc hstep hu
    · rw [e, andThen_next, hrest]
    · rw [e, andThen_next]
      exact ih hk' hc' (by omega) (by omega) hrest

/-- A command that answers, answers alike with any temporary (R39). -/
theorem runCommand_withTemp {c : Command} {s t : State} (v : Word) (h : runCommand c s = .next t) :
    runCommand c (s.withTemp v) = .next t := by
  obtain ⟨u, haccept, hrun⟩ := andThen_eq_next h
  obtain ⟨k, hk, hidle, rfl⟩ := acceptCommand_cases haccept
  rw [runCommand_idle (State.withTemp_actor hk v) hidle, s.withTemp_modifyActor_comm v fun _ => rfl]
  exact runToEnd_withTemp (k := k.accept c) v (by simp [hk]) rfl (Nat.zero_le 1) (Nat.le_add_left 2 7) hrun

/-- The meaning of a command is its run (R64). -/
theorem exec_of_commandOf {i : Instr} {c : Command} (h : commandOf i = some c) (s : State) : exec i s = runCommand c s := by
  cases i <;> cases h <;> rfl

/-- Settles O59: a command ends or overwrites the temporary within its first two steps, neither of which looks at it. -/
theorem temporaryNotObserved : Obligations.TemporaryNotObserved := by
  intro i s t v hi h
  obtain ⟨c, hc⟩ := Option.isSome_iff_exists.mp hi
  rw [exec_of_commandOf hc] at h ⊢
  exact runCommand_withTemp v h

end Sys2Proof.Machine
end

section
/-! Proofs of the statements of 20_memory.md about words and registers: the byte views of a word (O6, R52), and the writes
that may be repeated (O49, R57). -/

namespace Sys2Proof.Machine

/-! ## Byte views -/

/-- Byte `k` of a word begins at bit 8k (R52). -/
theorem getLsbD_wordByte (v : Word) (k : Nat) {i : Nat} (hi : i < 8) : (wordByte v k).getLsbD i = v.getLsbD (8 * k + i) := by
  simp [wordByte, hi]

/-- Bit `i` of a word put together from bytes, by the byte it falls in (R52). -/
theorem getLsbD_wordOfBytes (b0 b1 b2 b3 : BitVec 8) (i : Nat) :
    (wordOfBytes b0 b1 b2 b3).getLsbD i =
      if i < 8 then b0.getLsbD i else if i < 16 then b1.getLsbD (i - 8) else if i < 24 then b2.getLsbD (i - 16)
      else b3.getLsbD (i - 24) := by
  show (b3 ++ b2 ++ b1 ++ b0 : BitVec (8 + 8 + 8 + 8)).getLsbD i = _
  have h16 : i - 8 < 8 ↔ i < 16 := by omega
  have h24 : i - 16 < 8 ↔ i < 24 := by omega
  simp only [BitVec.getLsbD_append]
  simp only [Nat.sub_sub, Nat.reduceAdd, h16, h24]

/-- A word is its four bytes put together, the lowest offset first (R52). -/
theorem wordOfBytes_wordByte (v : Word) : wordOfBytes (wordByte v 0) (wordByte v 1) (wordByte v 2) (wordByte v 3) = v := by
  apply BitVec.eq_of_getLsbD_eq
  intro i hi
  rw [getLsbD_wordOfBytes]
  split_ifs <;> rw [getLsbD_wordByte _ _ (by omega)] <;> congr 1 <;> omega

/-- Settles O6: a bit of either view is the bit of the byte it falls in. -/
theorem littleEndianWords : Obligations.LittleEndianWords :=
  ⟨fun v k _ _ hi => getLsbD_wordByte v k hi, wordOfBytes_wordByte⟩

/-! ## Idempotent writes -/

/-- Giving some pins' entries of a table a value they have already changes nothing. -/
theorem pinTable_update_idem {α : Type} (c : Pin → Prop) [DecidablePred c] (a : α) (f : Pin → α) :
    (pinTable fun p => if c p then a else if c p then a else f p) = pinTable fun p => if c p then a else f p :=
  congrArg pinTable (funext fun p => by split_ifs <;> rfl)

/-- Giving the written latches their value again changes none (R57). -/
theorem RegFile.writeLatches_idem (rf : RegFile) (n : Nat) (v : Word) (b : Bool) :
    (rf.writeLatches n v b).writeLatches n v b = rf.writeLatches n v b := by
  simp only [RegFile.writeLatches, pinTable_pin, pinTable_update_idem]

/-- Staging the same code again changes nothing: the pins it made indeterminate, if a clock was asserted, are so already
(R57, R162). -/
theorem RegFile.writePud_idem (rf : RegFile) (v : Word) : (rf.writePud v).writePud v = rf.writePud v := by
  simp only [RegFile.writePud, pinTable_pin, pinTable_update_idem]

theorem State.withRf_withRf (s : State) (rf rf' : RegFile) : (s.withRf rf).withRf rf' = s.withRf rf' := rfl

/-- A write of SETn or CLRn that answers, answers the same state again (R57): its checks look at the word alone. -/
theorem writeLatches_again {n : Nat} {v : Word} {b : Bool} {s t : State} (h : writeLatches n v b s = .next t) :
    writeLatches n v b t = .next t := by
  obtain ⟨hv, hres, rfl⟩ := writeLatches_cases h
  rw [writeLatches, if_neg hv, if_neg hres, State.withRf_rf, RegFile.writeLatches_idem, State.withRf_withRf]

/-- A second write of the same word to PUD leaves the state the first one left (R57). -/
theorem writePud_again (v : Word) (s : State) : writePud v (writePud v s) = writePud v s := by
  rw [writePud, writePud, State.withRf_rf, RegFile.writePud_idem, State.withRf_withRf]

/-- Settles O49: each of the four latch writes is `writeLatches`; the write of PUD is idempotent with or without a strobe. -/
theorem idempotentWrites : Obligations.IdempotentWrites := by
  intro s t v
  refine ⟨fun i hi h => ?latches, fun _ h => ?pud⟩
  case latches =>
    simp only [List.mem_cons, List.not_mem_nil, or_false] at hi
    obtain rfl | rfl | rfl | rfl := hi <;> exact writeLatches_again h
  case pud =>
    cases h
    exact congrArg Host.Outcome.next (writePud_again v s)

end Sys2Proof.Machine
end

section
/-! Lemmas for the statements of 20_memory.md: what one turn of the schedule does. With them the turns of another bus
master and of raw micro-ops (O11, O12, R53, R54). -/

namespace Sys2Proof.Machine

/-! ## One turn -/

/-- The step of a state that is not refused does what the schedule's next turn does. -/
theorem step_of_sched {s : State} {a : Turn} {rest : List Turn} (hr : s.refused = false) (hs : s.sched = a :: rest) :
    step s = (fetchTurn a { s with sched := rest }).result := by
  simp [step_eq_result, fetch, hr, hs]

/-- A turn of a raw micro-op runs what its word decodes to (R92). -/
theorem fetchTurn_uop {w : BitVec 43} {i : Instr} (h : decodeUop w = .ok i) (c : Nat) (s : State) :
    fetchTurn (.uop c w) s = .run i { s with cur := c } := by
  simp [fetchTurn, h]

/-- The state in which a turn of controller `c` has been taken from the schedule. -/
def State.atTurn (s : State) (c : Nat) (rest : List Turn) : State := { s with sched := rest, cur := c }

@[simp] theorem State.atTurn_actor (s : State) (c : Nat) (rest : List Turn) :
    (s.atTurn c rest).actor? = s.ctrls[c]? := rfl

/-- A whole-command turn of controller `c` makes its steps to the end of its command. -/
theorem step_run_turn {s : State} {c : Nat} {rest : List Turn} (hr : s.refused = false)
    (hs : s.sched = .run c :: rest) : step s = (fetchRun (s.atTurn c rest)).result :=
  step_of_sched hr hs

/-- A turn of a controller with a command in flight is a micro-op step (R140). -/
theorem step_ctrl_busy {s : State} {c : Nat} {rest : List Turn} {k : Ctrl} {cmd : Command} (hr : s.refused = false)
    (hs : s.sched = .ctrl c :: rest) (hk : s.ctrls[c]? = some k) (hc : k.cmd = some cmd) :
    step s = microStep (s.atTurn c rest) := by
  have hfetch : fetchCtrl (s.atTurn c rest) = .done (microStep (s.atTurn c rest)) := by simp [fetchCtrl, hk, hc]
  exact (step_of_sched hr hs).trans (congrArg Fetched.result hfetch)

/-- A turn of an idle controller is the issue step of its host's next word (R140). -/
theorem step_ctrl_word {s : State} {c : Nat} {rest : List Turn} {k : Ctrl} {w : BitVec 64} {ws : List (BitVec 64)}
    (hr : s.refused = false) (hs : s.sched = .ctrl c :: rest) (hk : s.ctrls[c]? = some k) (hc : k.cmd = none)
    (hw : k.pending = w :: ws) : step s = issueWord w ((s.atTurn c rest).withPending ws) := by
  have hfetch : fetchCtrl (s.atTurn c rest) = .done (issueWord w ((s.atTurn c rest).withPending ws)) := by
    simp [fetchCtrl, hk, hc, hw]
  exact (step_of_sched hr hs).trans (congrArg Fetched.result hfetch)

/-! ## Accesses of another bus master -/

/-- A bus request with its fields written out decodes to the row of its fields (R90, R91). -/
theorem decodeBus_busWord (we : Bool) (i : BitVec 10) (v : Word) :
    decodeBus (busWord (BitVec.ofBool we) i v) = busInstr we i v := by
  rw [decodeBus, busWord_index, busWord_data, getLsbD_busWord]
  simp

/-- An aligned 32-bit access in the window is the bus request of its word index (R53 to R55). -/
theorem fetchForeign_aligned {a : ForeignAccess} (hw : a.width = 32) (ho : a.offset % 4 = 0) (hin : a.offset < 4096)
    (s : State) : fetchForeign a s = .run (busInstr a.write (BitVec.ofNat 10 (a.offset / 4)) a.data) s := by
  simp [fetchForeign, hw, ho, hin]

/-- An access of another width is refused, aligned or not (R53; log entry 13). -/
theorem fetchForeign_width {a : ForeignAccess} (hw : a.width ≠ 32) (s : State) :
    fetchForeign a s = .done (refuse .subWordAccess s) :=
  if_pos hw

/-- A misaligned 32-bit access is refused (R54). -/
theorem fetchForeign_misaligned {a : ForeignAccess} (hw : a.width = 32) (ho : a.offset % 4 ≠ 0) (s : State) :
    fetchForeign a s = .done (refuse .misaligned s) := by
  rw [fetchForeign, if_neg (not_not.mpr hw), if_pos ho]

/-- Settles O11: the turn fetches the row of the request's fields, and the step runs it. -/
theorem stepRunsDecodedTransaction : Obligations.StepRunsDecodedTransaction := by
  intro s rest hr
  refine ⟨fun w hs => ?bus, fun c w i hs hw => ?uop, fun a hs hwidth hoffset hin => ?foreign⟩
  case bus => exact step_of_sched hr hs
  case uop => rw [step_of_sched hr hs, fetchTurn_uop hw, Fetched.result]
  case foreign =>
    calc step s
        = (fetchForeign a { s with sched := rest }).result := step_of_sched hr hs
      _ = exec (busInstr a.write (BitVec.ofNat 10 (a.offset / 4)) a.data) { s with sched := rest } := by
        rw [fetchForeign_aligned hwidth hoffset hin, Fetched.result]
      _ = _ := by rw [← decodeBus_busWord, busWord]

/-- Settles O12: the width is checked first, then the alignment, both before the window. -/
theorem foreignAccessRefused : Obligations.ForeignAccessRefused := by
  intro s rest a hr hs
  have hstep : step s = (fetchForeign a { s with sched := rest }).result := step_of_sched hr hs
  refine ⟨fun hwidth => ?width, fun hwidth hoffset => ?misaligned⟩
  case width => rw [hstep, fetchForeign_width hwidth]; rfl
  case misaligned => rw [hstep, fetchForeign_misaligned hwidth hoffset]; rfl

end Sys2Proof.Machine
end

section
/-! Proof of the statement of 20_memory.md about whole commands: a command run undisturbed is its issue step and its
micro-op steps (O18, R64, R140). No shared operation looks at the schedule, so the steps can be made one turn at a time. -/

namespace Sys2Proof.Machine

/-! ## Another schedule -/

/-- The state with another schedule. -/
def State.withSched (s : State) (l : List Turn) : State := { s with sched := l }

theorem busRead_withSched {n : Nat} {s t : State} (l : List Turn) (h : busRead n s = .next t) :
    busRead n (s.withSched l) = .next (t.withSched l) := by
  unfold busRead at h ⊢
  split_ifs at h ⊢ <;> cases h <;> rfl

theorem busWrite_withSched {n : Nat} {v : Word} {s t : State} (l : List Turn) (h : busWrite n v s = .next t) :
    busWrite n v (s.withSched l) = .next (t.withSched l) := by
  unfold busWrite writeSet writeClr writeLatches writePudclk at h ⊢
  split_ifs at h ⊢ <;> cases h <;> rfl

/-- No micro-op looks at the schedule. -/
theorem performMicro_withSched {op : MicroOp} {s : State} {r : State × Option Status} (l : List Turn)
    (h : performMicro op s = .next r) : performMicro op (s.withSched l) = .next (r.1.withSched l, r.2) := by
  cases op with
  | entry pin =>
    obtain ⟨k, hk, h⟩ := withActor_eq_next h
    cases h
    exact withActor_some hk _
  | openWindow =>
    obtain ⟨k, hk, h⟩ := withActor_eq_next h
    refine (withActor_some hk _).trans ?_
    split at h
    next ho => cases h; exact if_pos ho
    next ho => cases h; exact if_neg ho
  | closeWindow =>
    obtain ⟨k, hk, h⟩ := withActor_eq_next h
    refine (withActor_some hk _).trans ?_
    split at h
    next ho => cases h; exact if_pos ho
    next ho => cases h; exact if_neg ho
  | read i =>
    obtain ⟨k, hk, ⟨s', he, hb, rfl⟩ | ⟨e, he, rfl⟩⟩ := readReg_cases h
    · exact readReg_next (s := s.withSched l) hk he (busRead_withSched l hb)
    · exact readReg_error hk he
  | write i v =>
    obtain ⟨k, hk, ⟨s', he, hb, rfl⟩ | ⟨e, he, rfl⟩⟩ := writeReg_cases h
    · exact writeReg_next hk he (busWrite_withSched l hb)
    · exact writeReg_error hk he

theorem concludeMicro_withSched (c : Command) (n : Nat) (e : Option Status) (s : State) (l : List Turn) :
    concludeMicro c n e (s.withSched l) = (concludeMicro c n e s).withSched l := by
  unfold concludeMicro
  split_ifs <;> rfl

theorem microStep_withSched {s t : State} {k : Ctrl} {c : Command} (l : List Turn) (hk : s.actor? = some k)
    (hc : k.cmd = some c) (h : microStep s = .next t) : microStep (s.withSched l) = .next (t.withSched l) := by
  obtain ⟨k', hk', ⟨hidle, -⟩ | ⟨c', op, r, hc', ho, hr, rfl⟩⟩ := microStep_cases h <;> cases hk.symm.trans hk'
  · cases hidle.symm.trans hc
  · rw [microStep_eq (s := s.withSched l) hk hc' ho, performMicro_withSched l hr, andThen_next, concludeMicro_withSched]

theorem acceptCommand_withSched {c : Command} {s t : State} (l : List Turn) (h : acceptCommand c s = .next t) :
    acceptCommand c (s.withSched l) = .next (t.withSched l) := by
  obtain ⟨k, hk, hidle, rfl⟩ := acceptCommand_cases h
  exact (withActor_some hk _).trans (if_neg (by simp [hidle]))

theorem rejectCommand_withSched {s t : State} (l : List Turn) (h : rejectCommand s = .next t) :
    rejectCommand (s.withSched l) = .next (t.withSched l) := by
  obtain ⟨k, hk, hidle, rfl⟩ := rejectCommand_cases h
  exact (withActor_some hk _).trans (if_neg (by simp [hidle]))

/-! ## The issue step -/

/-- The decoder of the command port gives commands only (R87, R88). -/
theorem commandOf_of_decodeCmd {w : BitVec 64} {i : Instr} (h : decodeCmd w = .ok i) : ∃ c, commandOf i = some c := by
  simp only [decodeCmd] at h
  repeat' split at h
  all_goals cases h
  all_goals exact ⟨_, rfl⟩

theorem issueWord_legal {w : BitVec 64} {i : Instr} {c : Command} (hw : decodeCmd w = .ok i) (hc : commandOf i = some c)
    (s : State) : issueWord w s = acceptCommand c s := by
  simp [issueWord, hw, hc]

theorem issueWord_illegal {w : BitVec 64} {e : DecodeError} (hw : decodeCmd w = .error e) (s : State) :
    issueWord w s = rejectCommand s := by
  simp [issueWord, hw]

theorem issueWord_withSched {w : BitVec 64} {s t : State} (l : List Turn) (h : issueWord w s = .next t) :
    issueWord w (s.withSched l) = .next (t.withSched l) := by
  cases hw : decodeCmd w with
  | error e =>
    rw [issueWord_illegal hw] at h ⊢
    exact rejectCommand_withSched l h
  | ok i =>
    obtain ⟨c, hc⟩ := commandOf_of_decodeCmd hw
    rw [issueWord_legal hw hc] at h ⊢
    exact acceptCommand_withSched l h

theorem quiet_issueWord {w : BitVec 64} {s t : State} (h : issueWord w s = .next t) : Quiet s t := by
  obtain h | ⟨c, h⟩ := issueWord_cases h
  · obtain ⟨k, -, -, rfl⟩ := rejectCommand_cases h
    exact quiet_modifyActor _ _
  · obtain ⟨k, -, -, rfl⟩ := acceptCommand_cases h
    exact quiet_modifyActor _ _

/-! ## A whole command as one-step turns -/

/-- A whole-command turn of an idle controller is the issue step of the next word and then every micro-op step, of which an
illegal word has none (R64, R205). -/
theorem fetchRun_eq_next {s t : State} {k : Ctrl} {w : BitVec 64} {ws : List (BitVec 64)} (hk : s.actor? = some k)
    (hc : k.cmd = none) (hw : k.pending = w :: ws) (h : (fetchRun s).result = .next t) :
    ∃ u, issueWord w (s.withPending ws) = .next u ∧ runToEnd 9 u = .next t := by
  cases hd : decodeCmd w with
  | error e =>
    have hrej : rejectCommand (s.withPending ws) = .next t := by
      simpa [fetchRun, hk, hc, hw, hd, Fetched.result] using h
    obtain ⟨k', hk', hidle, rfl⟩ := rejectCommand_cases hrej
    refine ⟨_, (issueWord_illegal hd _).trans hrej, runToEnd_idle (k := k'.reject (rspWord .errIllegalCmd false)) ?_ hidle⟩
    rw [State.modifyActor_actor, hk', Option.map_some]
  | ok i =>
    obtain ⟨c, hcmd⟩ := commandOf_of_decodeCmd hd
    have hexec : exec i (s.withPending ws) = .next t := by
      simpa [fetchRun, hk, hc, hw, hd, Fetched.result] using h
    rw [exec_of_commandOf hcmd] at hexec
    obtain ⟨u, haccept, hrun⟩ := andThen_eq_next hexec
    exact ⟨u, (issueWord_legal hd hcmd _).trans haccept, hrun⟩

/-- Micro-op steps to the end are as many one-step turns of the acting controller (R140). -/
theorem steps_of_runToEnd {n : Nat} {s t : State} (hr : s.refused = false) (h : runToEnd n s = .next t) :
    ∃ m ≤ n, steps m (s.withSched (List.replicate m (.ctrl s.cur) ++ s.sched)) = .next t := by
  induction n generalizing s with
  | zero => exact ⟨0, Nat.le_refl 0, h⟩
  | succ n ih =>
    obtain ⟨k, hk, -⟩ := withActor_eq_next h
    cases hc : k.cmd with
    | none => exact ⟨0, Nat.zero_le _, (runToEnd_idle hk hc).symm.trans h⟩
    | some c =>
      rw [runToEnd_succ hk hc] at h
      obtain ⟨u, hu, hrest⟩ := andThen_eq_next h
      obtain ⟨hrefused, -, hcur, hsched, -⟩ := quiet_microStep hu
      obtain ⟨m, hm, hsteps⟩ := ih (hrefused.trans hr) hrest
      rw [hcur, hsched] at hsteps
      refine ⟨m + 1, Nat.succ_le_succ hm, ?_⟩
      have hturn (l : List Turn) : step (s.withSched (.ctrl s.cur :: l)) = .next (u.withSched l) :=
        (step_ctrl_busy (s := s.withSched (.ctrl s.cur :: l)) hr rfl hk hc).trans
          (microStep_withSched (s := s) l hk hc hu)
      rw [steps, List.replicate_succ, List.cons_append, hturn, andThen_next, hsteps]

/-- Settles O18: the first turn is the issue step of the word, and each turn after it one of the micro-op steps, of which
there are at most nine. -/
theorem wholeCommandIsItsSteps : Obligations.WholeCommandIsItsSteps := by
  intro s t c k w ws rest hr hs hk hidle hw h
  rw [step_run_turn hr hs] at h
  obtain ⟨u, hissue, hrun⟩ := fetchRun_eq_next (s := s.atTurn c rest) hk hidle hw h
  obtain ⟨hrefused, -, hcur, hsched, -⟩ := quiet_issueWord hissue
  obtain ⟨m, hm, hsteps⟩ := steps_of_runToEnd (hrefused.trans hr) hrun
  have hfirst (l : List Turn) : step (s.withSched (.ctrl c :: l)) = .next (u.withSched l) :=
    (step_ctrl_word (s := s.withSched (.ctrl c :: l)) hr rfl hk hidle hw).trans (issueWord_withSched l hissue)
  refine ⟨m + 1, Nat.succ_pos m, Nat.succ_le_succ hm, ?_⟩
  calc steps (m + 1) (s.withSched (.ctrl c :: (List.replicate m (.ctrl c) ++ rest)))
      = steps m (u.withSched (List.replicate m (.ctrl c) ++ rest)) := by rw [steps, hfirst, andThen_next]
    _ = steps m (u.withSched (List.replicate m (.ctrl u.cur) ++ u.sched)) := by rw [hcur, hsched]; rfl
    _ = .next t := hsteps

end Sys2Proof.Machine
end

section
/-! Proof of the statement of 20_memory.md about two controllers: the lost update of one select register (O60, R61, R238). -/

namespace Sys2Proof.Machine

/-! ## The word a SETUP writes back -/

theorem getLsbD_dirWord (d : PinDirection) (i : Nat) : (dirWord d).getLsbD i = (dirCode d).getLsbD i := by
  cases d <;> simp [dirWord, dirCode]

/-- The mask of a function-select field has the low three bits (R180). -/
theorem getLsbD_seven (i : Nat) : (7#32).getLsbD i = decide (i < 3) := by
  have htest : Nat.testBit 7 i = decide (i < 3) := Nat.testBit_two_pow_sub_one 3 i
  rw [BitVec.getLsbD_ofNat, htest, ← Bool.decide_and, decide_eq_decide]
  omega

/-- The word SETUP writes back has the direction code at its shift and the word read elsewhere (R180). -/
theorem getLsbD_replaceField (t : Word) (shift : Nat) (d : PinDirection) {i : Nat} (hi : i < 32) :
    (replaceField t shift d).getLsbD i =
      if shift ≤ i ∧ i < shift + 3 then (dirCode d).getLsbD (i - shift) else t.getLsbD i := by
  simp only [replaceField, BitVec.getLsbD_or, BitVec.getLsbD_and, BitVec.getLsbD_not, BitVec.getLsbD_shiftLeft,
    getLsbD_seven, getLsbD_dirWord]
  by_cases hlow : i < shift
  · have hout : ¬ (shift ≤ i ∧ i < shift + 3) := by omega
    simp [hlow, hi, hout]
  by_cases hhigh : i < shift + 3
  · have hin : i - shift < 3 := by omega
    simp [hlow, hi, hhigh, hin, Nat.le_of_not_lt hlow]
  · have hout : ¬ i - shift < 3 := by omega
    simp [hlow, hi, hhigh, hout, BitVec.getLsbD_of_ge (dirCode d) (i - shift) (Nat.le_of_not_lt hout)]

/-- A field of the word SETUP writes back: the direction code in the field of its pin, else the field read (R180). -/
theorem fselField_replaceField (t : Word) (d : PinDirection) (p q : Nat) :
    fselField (replaceField t (fselShift p) d) (q % 10) =
      if q % 10 = p % 10 then dirCode d else fselField t (q % 10) := by
  apply BitVec.eq_of_getLsbD_eq
  intro i hi
  rw [fselField, BitVec.getLsbD_extractLsb', getLsbD_replaceField _ _ _ (by omega), fselShift_eq_mul_mod]
  by_cases h : q % 10 = p % 10
  · rw [if_pos h, if_pos (by omega)]
    simp [hi, h]
  · rw [if_neg h, if_neg (by omega), fselField, BitVec.getLsbD_extractLsb']

/-! ## The last step of a SETUP -/

/-- At step 8 the SETUP of a valid pin writes its select register and ends (R180). -/
theorem microStep_setup_last {s : State} {k : Ctrl} {pin : BitVec 32} {d : PinDirection} {m : PullMode}
    (hk : s.actor? = some k) (ho : k.isOpen = true) (hc : k.cmd = some (.setup pin d m)) (hstep : k.step = 8)
    (hp : pin.toNat < 54) :
    microStep s = .next (endCommand .ok false
      (s.withRf (s.rf.writeFsel (pin.toNat / 10) (replaceField k.t (fselShift pin.toNat) d)))) := by
  have hop : microOp (.setup pin d m) k.step k.t =
      some (.write (fselIndex pin.toNat) (replaceField k.t (fselShift pin.toNat) d)) := by rw [hstep]; rfl
  have hlast : k.step + 1 = programLength (.setup pin d m) := by rw [hstep]; rfl
  have hindex : fselIndex pin.toNat < 1024 := by rw [fselIndex_eq_div]; omega
  have hend := microStep_write_last hk hc hop hlast (rawError_none ho hindex) (busWrite_fsel _ hp _ s)
  exact hend

/-- The turn of a controller at the last step of its SETUP (R180). -/
theorem step_setup_last {s : State} {c : Nat} {rest : List Turn} {k : Ctrl} {pin : BitVec 32} {d : PinDirection}
    {m : PullMode} (hr : s.refused = false) (hs : s.sched = .ctrl c :: rest) (hk : s.ctrls[c]? = some k)
    (ho : k.isOpen = true) (hc : k.cmd = some (.setup pin d m)) (hstep : k.step = 8) (hp : pin.toNat < 54) :
    ∃ t, step s = .next t ∧
      t.rf = s.rf.writeFsel (pin.toNat / 10) (replaceField k.t (fselShift pin.toNat) d) ∧
      Quiet (s.atTurn c rest) t := by
  have hmicro := microStep_setup_last (s := s.atTurn c rest) hk ho hc hstep hp
  exact ⟨_, (step_ctrl_busy hr hs hk hc).trans hmicro, rfl, quiet_microStep hmicro⟩

/-- Settles O60: the second write puts every field of the word that both had read back over the first, but for its own
pin's. -/
theorem lostUpdate : Obligations.LostUpdate := by
  intro s k0 k1 p0 p1 d0 d1 m0 m1 rest h0 h1 hr hctrls hsched ho0 ho1 hc0 hc1 hstep0 hstep1 ht hreg hne
  obtain ⟨u, hu, -, hrefused, -, -, hrest, hothers⟩ :=
    step_setup_last hr hsched (by rw [hctrls]; rfl) ho0 hc0 hstep0 h0
  have hk1 : u.ctrls[1]? = some k1 := by
    rw [hothers 1 Nat.one_ne_zero, State.atTurn, hctrls]; rfl
  obtain ⟨t, hlast, hrf, -⟩ := step_setup_last (hrefused.trans hr) hrest hk1 ho1 hc1 hstep1 h1
  have hdistinct : p0.toNat % 10 ≠ p1.toNat % 10 := fun h => hne (BitVec.eq_of_toNat_eq (by omega))
  refine ⟨t, by rw [steps, hu, andThen_next, steps, hlast, andThen_next, steps], ?first, ?second⟩
  case first =>
    simp [hrf, hreg, ht, fselField_replaceField, hdistinct]
  case second =>
    simp [hrf, fselField_replaceField]

end Sys2Proof.Machine
end

section
/-! Proofs of the statements of 30_encoding.md: the words of the three ports decode to what they encode (O1), the command
port is strict (O2, O3), the key of a bus request selects its row (O4), and the response word has its fields (O5). -/

namespace Sys2Proof.Machine

/-! ## The codes of the operands -/

/-- A mode and its pull code determine each other (R22, R83). -/
@[simp] theorem pullModeOf_eq_some {c : BitVec 2} {m : PullMode} : pullModeOf c = some m ↔ pullCode m = c := by
  cases m <;> decide +revert

@[simp] theorem pullModeOf_pullCode (m : PullMode) : pullModeOf (pullCode m) = some m := pullModeOf_eq_some.mpr rfl

@[simp] theorem dirOf_dirBit (d : PinDirection) : dirOf (dirBit d) = d := by cases d <;> rfl

@[simp] theorem dirBit_dirOf (b : BitVec 1) : dirBit (dirOf b) = b := by decide +revert

@[simp] theorem levelOf_levelBit (l : PinLevel) : levelOf (levelBit l) = l := by cases l <;> rfl

@[simp] theorem levelBit_levelOf (b : BitVec 1) : levelBit (levelOf b) = b := by decide +revert

/-! ## The bus and raw micro-ops -/

/-- A micro-op word with its fields written out decodes to the access of its index, and a read has no data (R90, R92). -/
theorem decodeUop_busWord (we : Bool) (i : BitVec 10) (v : Word) :
    decodeUop (busWord (BitVec.ofBool we) i v) =
      if we then .ok (.writeReg i.toNat v) else if v = 0 then .ok (.readReg i.toNat) else .error .readWithData := by
  simp only [decodeUop, busWord_index, busWord_data, getLsbD_busWord]
  simp

/-- A read request decodes to the read row of its index (R90). -/
theorem decodeBus_read (i : BitVec 10) (v : Word) : decodeBus (0#1 ++ i ++ v) = busInstr false i v :=
  decodeBus_busWord false i v

/-- A write request decodes to the write row of its index (R90). -/
theorem decodeBus_write (i : BitVec 10) (v : Word) : decodeBus (1#1 ++ i ++ v) = busInstr true i v :=
  decodeBus_busWord true i v

theorem listedWord_eq_false_iff {n : Nat} : listedWord n = false ↔
    ¬ (n ≤ 5 ∨ n = 7 ∨ n = 8 ∨ n = 10 ∨ n = 11 ∨ n = 13 ∨ n = 14 ∨ n = 37 ∨ n = 38 ∨ n = 39) := by
  simp [listedWord, and_assoc]

/-- A word the register map does not list has the unlisted rows (R91, R119). -/
theorem busInstr_of_not_listed {i : BitVec 10} (h : listedWord i.toNat = false) (we : Bool) (v : Word) :
    busInstr we i v = if we then .wrUnlisted i v else .rdUnlisted i := by
  unfold busInstr
  split
  case h_31 | h_32 => rfl
  all_goals next hi => simp [hi, listedWord] at h

/-- Settles O4: the listed keys are rows of `busInstr`, and every other index is not a listed word. -/
theorem busKeyMap : Obligations.BusKeyMap := by
  intro v
  simp only [decodeBus_read, decodeBus_write]
  refine ⟨?select, ?latches, ?pulls, fun i hi => ?unlisted⟩
  case select | latches | pulls => and_intros <;> rfl
  case unlisted => simp [busInstr_of_not_listed (listedWord_eq_false_iff.mpr hi)]

/-! ## Decoding an encoding -/

/-- Settles O1: by the rows of the instruction set, which fall into the commands, the raw accesses, the unlisted rows, and
the listed reads and writes. -/
theorem decodeOfEncode : Obligations.DecodeOfEncode := by
  intro i hwf
  cases i with
  | openCmd | closeCmd => decide
  | setPull pin mode | setup pin dir mode | output pin level | input pin => simp [decode, encode, decodeCmd]
  | readReg i =>
    have hi : i < 1024 := of_decide_eq_true hwf
    exact (decodeUop_busWord false _ 0).trans (by simp [Nat.mod_eq_of_lt hi])
  | writeReg i v =>
    have hi : i < 1024 := of_decide_eq_true hwf
    exact (decodeUop_busWord true _ v).trans (by simp [Nat.mod_eq_of_lt hi])
  | rdUnlisted i =>
    have hi : listedWord i.toNat = false := by simpa [WellFormed] using hwf
    exact congrArg Except.ok ((decodeBus_read i 0).trans (busInstr_of_not_listed hi false 0))
  | wrUnlisted i v =>
    have hi : listedWord i.toNat = false := by simpa [WellFormed] using hwf
    exact congrArg Except.ok ((decodeBus_write i v).trans (busInstr_of_not_listed hi true v))
  | rdFsel0 | rdFsel1 | rdFsel2 | rdFsel3 | rdFsel4 | rdFsel5 | rdSet0 | rdSet1 | rdClr0 | rdClr1 | rdLev0 | rdLev1
  | rdPud | rdPudclk0 | rdPudclk1 => exact congrArg Except.ok (decodeBus_read _ 0)
  | wrFsel0 v | wrFsel1 v | wrFsel2 v | wrFsel3 v | wrFsel4 v | wrFsel5 v | wrSet0 v | wrSet1 v | wrClr0 v | wrClr1 v
  | wrLev0 v | wrLev1 v | wrPud v | wrPudclk0 v | wrPudclk1 v => exact congrArg Except.ok (decodeBus_write _ v)

/-! ## The command port is strict -/

/-- The command decoder accepts no word with a reserved bit (R86). -/
theorem reserved_of_decodeCmd {w : BitVec 64} {i : Instr} (h : decodeCmd w = .ok i) : w.extractLsb' 32 24 = 0#24 := by
  by_contra hrsv
  simp [decodeCmd, hrsv] at h

/-- A word whose reserved bits are zero is put together from its other fields (R81). -/
theorem exists_eq_cmdWord {w : BitVec 64} (h : w.extractLsb' 32 24 = 0#24) :
    ∃ op mode dir lvl pin, w = cmdWord op mode dir lvl pin := by
  refine ⟨w.extractLsb' 60 4, w.extractLsb' 58 2, w.extractLsb' 57 1, w.extractLsb' 56 1, w.extractLsb' 0 32, ?_⟩
  simp only [cmdWord, ← h, BitVec.extractLsb'_append_extractLsb'_eq_extractLsb', BitVec.extractLsb'_eq_self]

/-- Settles O2: an accepted word is put together from its fields, and in each of the six accepting branches the fields are
those of the encoding. -/
theorem commandDecodeIsStrict : Obligations.CommandDecodeIsStrict := by
  intro w i h
  refine ⟨Option.isSome_iff_exists.mpr (commandOf_of_decodeCmd h), ?_⟩
  obtain ⟨op, mode, dir, lvl, pin, rfl⟩ := exists_eq_cmdWord (reserved_of_decodeCmd h)
  simp only [decodeCmd, cmdWord_op, cmdWord_mode, cmdWord_dir, cmdWord_lvl, cmdWord_rsv, cmdWord_pin] at h
  repeat' split at h
  all_goals cases h
  -- The accepting branches, in the order of OP 1 to 6 (R87).
  next hop hunused => simp [encode, BitVec.toNat_eq_nat.mp hop, hunused]
  next hop hunused => simp [encode, BitVec.toNat_eq_nat.mp hop, hunused]
  next hop _ _ hmode hunused => simp [encode, BitVec.toNat_eq_nat.mp hop, pullModeOf_eq_some.mp hmode, hunused]
  next hop _ _ hmode hunused => simp [encode, BitVec.toNat_eq_nat.mp hop, pullModeOf_eq_some.mp hmode, hunused]
  next hop hunused => simp [encode, BitVec.toNat_eq_nat.mp hop, hunused]
  next hop hunused => simp [encode, BitVec.toNat_eq_nat.mp hop, hunused]

/-- A word the decoder rejects stands for no instruction. -/
theorem decodeCmd_ne_ok {w : BitVec 64} {e : DecodeError} (h : decodeCmd w = .error e) (i : Instr) :
    decodeCmd w ≠ .ok i := by
  simp [h]

/-- Settles O3: the decoder evaluated on each word, the illegal ones with the reason they are rejected for. -/
theorem exampleCommandWords : Obligations.ExampleCommandWords := by
  refine ⟨by decide, by decide, by decide, by decide, by decide, by decide, by decide, by decide, by decide, by decide,
    by decide, by decide, ?illegal⟩
  simp only [List.forall_mem_cons]
  exact ⟨decodeCmd_ne_ok (e := .badOp) (by decide), decodeCmd_ne_ok (e := .pullCode3) (by decide),
    decodeCmd_ne_ok (e := .reservedBits) (by decide), decodeCmd_ne_ok (e := .unusedField) (by decide), by simp⟩

/-! ## The response word -/

/-- Settles O5: the three fields are the three parts the word is put together from. -/
theorem responseWordFields : Obligations.ResponseWordFields := by
  intro st level
  unfold rspWord
  refine ⟨BitVec.extractLsb'_append_eq_right, ?level, ?zero⟩
  case level =>
    rw [BitVec.getLsbD_append, if_neg (by decide), BitVec.getLsbD_append, if_pos (by decide)]
    simp
  case zero =>
    rw [BitVec.extractLsb'_append_eq_of_le (by decide)]
    exact BitVec.extractLsb'_append_eq_left

end Sys2Proof.Machine
end

section
/-! Proofs of the statements of 40_register_file.md about single bus transactions: the select registers (O38 to O40), the
output latches (O41 to O43), the levels (O44), the draws of a read (O45), the pull-control register (O46, O47), the pull
clocks (O48), and the refused transactions (O50). Each is stated first of the shared operation, for every register number. -/

namespace Sys2Proof.Machine

/-! ## Reads -/

/-- A read of FSELr has every field of the register and changes no state (R102). -/
theorem fselReadDone (r : Nat) (s : State) : FselReadDone r s (.next (readFsel r s)) := by
  refine ⟨_, rfl, rfl, rfl, ?_⟩
  rintro p rfl
  exact fselField_fselWord s.rf _ p

/-- The bit of an output pin in its level register is its latch (R30, R109). -/
theorem getLsbD_levelWord_output {rf : RegFile} {p : Pin} (h : rf.fsel[p] = 1#3) (ext : BitVec 64) :
    (levelWord rf (p.val / 32) ext).getLsbD (p.val % 32) = rf.latch[p] := by
  have hbit : p.val % 32 < 32 := Nat.mod_lt _ (by decide)
  have hfsel : rf.fsel[p.val] = 1#3 := h
  simp only [levelWord, getLsbD_ofBits, Nat.div_add_mod, hbit]
  simp [hfsel]

/-- Every other bit of a level register is the environment's (R30, R109). -/
theorem getLsbD_levelWord_draw {rf : RegFile} {n b : Nat} (hb : b < 32)
    (h : ∀ hp : 32 * n + b < 54, rf.fsel[32 * n + b] ≠ 1#3) (ext : BitVec 64) :
    (levelWord rf n ext).getLsbD b = ext.getLsbD (32 * n + b) := by
  simp only [levelWord, getLsbD_ofBits, hb, decide_true, Bool.true_and]
  split
  next hp => exact if_neg (h hp)
  next => rfl

/-- A read of LEVn has the latch of every output pin and changes no state (R109). -/
theorem levReadDone (n : Nat) (s : State) : LevReadDone n s (.next (readLev n s)) := by
  refine ⟨_, rfl, rfl, ?_⟩
  rintro p rfl hout
  exact getLsbD_levelWord_output hout _

/-- A read of LEVn takes one entry of the levels, for every bit that is no output pin's (log entry 6). -/
theorem levReadSamples (n : Nat) (s : State) : LevReadSamples n s (.next (readLev n s)) :=
  ⟨_, rfl, rfl, fun _ hb h => getLsbD_levelWord_draw hb h _⟩

/-- A bit of a select register that belongs to no field is a draw (R102). -/
theorem getLsbD_fselWord_reserved {rf : RegFile} {r b : Nat} (hb : b < 32) (h : ¬ (b < 30 ∧ 10 * r + b / 3 < 54))
    (free : Word) : (fselWord rf r free).getLsbD b = free.getLsbD b := by
  simp only [fselWord, getLsbD_ofBits, hb, h, decide_true, Bool.true_and, dite_false]

/-- A read of FSELr takes one draw, for the reserved bits (log entry 5). -/
theorem fselReadSamples (r : Nat) (s : State) : FselReadSamples r s (.next (readFsel r s)) :=
  ⟨_, rfl, rfl, fun _ hb h => getLsbD_fselWord_reserved hb h _⟩

/-- Bits 31 to 2 of the pull-control register are a draw (R111). -/
theorem extractLsb'_pudWord_reserved (rf : RegFile) (free : Word) :
    (pudWord rf free).extractLsb' 2 30 = free.extractLsb' 2 30 :=
  BitVec.extractLsb'_append_eq_left

/-- Settles O38: each row is the read of its register. -/
theorem fselReads : Obligations.FselReads := by
  refine ⟨fun d => ?keys, fun s => ?reads⟩
  case keys =>
    simp only [decodeBus_read]
    and_intros <;> rfl
  case reads =>
    exact ⟨fselReadDone 0 s, fselReadDone 1 s, fselReadDone 2 s, fselReadDone 3 s, fselReadDone 4 s, fselReadDone 5 s⟩

/-- Settles O44: each row is the read of its bank. -/
theorem levReads : Obligations.LevReads :=
  ⟨fun d => ⟨decodeBus_read 13 d, decodeBus_read 14 d⟩, fun s => ⟨levReadDone 0 s, levReadDone 1 s⟩⟩

/-- Settles O45: the bits no register state gives, register by register. -/
theorem readsTakeTheirDraws : Obligations.ReadsTakeTheirDraws := fun s =>
  ⟨⟨fselReadSamples 0 s, fselReadSamples 1 s, fselReadSamples 2 s, fselReadSamples 3 s, fselReadSamples 4 s,
    fselReadSamples 5 s⟩, ⟨levReadSamples 0 s, levReadSamples 1 s⟩, _, rfl, rfl, extractLsb'_pudWord_reserved s.rf _⟩

/-- Settles O46: the low two bits of the datum are the staging value. -/
theorem pudRead : Obligations.PudRead :=
  ⟨fun d => decodeBus_read 37 d, fun s => ⟨_, rfl, rfl, rfl, low2_pudWord s.rf _⟩⟩

/-! ## Writes -/

/-- A write of FSELr gives every field of the register its written code and changes no other state (R103). -/
theorem fselWriteDone (r : Nat) (v : Word) (s : State) : FselWriteDone r v s (.next (writeFsel r v s)) :=
  ⟨_, rfl, pinTable_pin _⟩

/-- A write of SETn or CLRn refuses the zero word and, in bank 1, a reserved bit, else gives the written latches their
value (R105, R107). -/
theorem latchWriteDone (n : Nat) (b : Bool) (v : Word) (s : State) : LatchWriteDone n b v s (writeLatches n v b s) := by
  refine ⟨fun hzero => if_pos hzero, fun hv hn hres => ?reserved, fun hv hres => ?written⟩
  case reserved => exact (if_neg hv).trans (if_pos ⟨hn, hres⟩)
  case written => exact ⟨_, (if_neg hv).trans (if_neg hres), pinTable_pin _⟩

/-- A write of PUD stages the low two bits and, if they are not 0, makes the pins under an asserted clock indeterminate
(R112, R162). -/
theorem pudWriteDone (v : Word) (s : State) : PudWriteDone v s (.next (writePud v s)) :=
  ⟨_, rfl, pinTable_pin _⟩

/-- The clocks of a bank read 0 exactly when the bank is Idle (R160). -/
theorem clkbank_eq_zero_iff {rf : RegFile} {n : Nat} : clkbank rf n = 0 ↔ rf.BankIdle n := by
  refine ⟨?_, clkbank_eq_zero rf n⟩
  rintro h p rfl
  exact Bool.eq_false_of_not_eq_true fun hclk => clkbank_ne_zero rf p hclk h

/-- A strobe of a bank with an asserted clock captures no mode (R161). -/
theorem strobe_of_ne_zero {old : Word} (h : old ≠ 0) (pud : BitVec 2) : strobe old pud = .indeterminate := if_neg h

/-- A write of PUDCLKn refuses a reserved bit in bank 1, else sets the bank's clocks, and the strobed pins capture what is
staged (R114, R161). -/
theorem pudclkWriteDone (n : Nat) (v : Word) (s : State) : PudclkWriteDone n v s (writePudclk n v s) := by
  refine ⟨fun hn hres => if_pos ⟨hn, hres⟩, fun hres =>
    ⟨_, _, if_neg hres, pinTable_pin _, fun p hp => ?unstrobed, fun p hn hv => ?strobed⟩⟩
  case unstrobed => exact (pinTable_pin _ p).trans (if_neg hp)
  case strobed =>
    rw [pinTable_pin, if_pos ⟨hn, hv⟩]
    refine ⟨fun hbusy => strobe_of_ne_zero (mt clkbank_eq_zero_iff.mp hbusy) _, fun hidle => ?_⟩
    rw [clkbank_eq_zero_iff.mpr hidle]
    refine ⟨?_, ?_, ?_, ?_⟩ <;> intro hpud <;> rw [hpud] <;> rfl

/-- Settles O39: each row is the write of its register. -/
theorem fselWrites : Obligations.FselWrites := by
  refine ⟨fun v => ?keys, fun s v => ?writes⟩
  case keys =>
    simp only [decodeBus_write]
    and_intros <;> rfl
  case writes =>
    exact ⟨fselWriteDone 0 v s, fselWriteDone 1 v s, fselWriteDone 2 v s, fselWriteDone 3 v s, fselWriteDone 4 v s,
      fselWriteDone 5 v s⟩

/-- Settles O41: a write of SETn gives latches the value 1. -/
theorem setWrites : Obligations.SetWrites := fun s v =>
  ⟨decodeBus_write 7 v, decodeBus_write 8 v, latchWriteDone 0 true v s, latchWriteDone 1 true v s⟩

/-- Settles O42: a write of CLRn gives latches the value 0. -/
theorem clrWrites : Obligations.ClrWrites := fun s v =>
  ⟨decodeBus_write 10 v, decodeBus_write 11 v, latchWriteDone 0 false v s, latchWriteDone 1 false v s⟩

/-- Settles O47: the row is the write of the register. -/
theorem pudWrite : Obligations.PudWrite := fun s v => ⟨decodeBus_write 37 v, pudWriteDone v s⟩

/-- Settles O48: each row is the write of its bank. -/
theorem pudclkWrites : Obligations.PudclkWrites := fun s v =>
  ⟨decodeBus_write 38 v, decodeBus_write 39 v, pudclkWriteDone 0 v s, pudclkWriteDone 1 v s⟩

/-! ## A write after another transaction -/

/-- A write of SETn or CLRn that answers leaves the latch of every pin whose bit is 1 at its value, whatever the latch was
before (R115). -/
theorem latch_of_writeLatches {n : Nat} {v : Word} {b : Bool} {s t : State} {p : Pin}
    (h : writeLatches n v b s = .next t) (hn : p.val / 32 = n) (hv : v.getLsbD (p.val % 32) = true) :
    t.rf.latch[p] = b := by
  obtain ⟨-, -, rfl⟩ := writeLatches_cases h
  exact (pinTable_pin _ p).trans (if_pos ⟨hn, hv⟩)

/-- Settles O43: the later write alone decides the latch. -/
theorem laterLatchWriteWins : Obligations.LaterLatchWriteWins := by
  intro s s1 s2 v w p hv hw
  refine ⟨fun hp => ?bank0, fun hp => ?bank1⟩
  case bank0 =>
    have hbank : p.val / 32 = 0 := bank_of_lt hp
    exact ⟨fun _ h => latch_of_writeLatches h hbank hw, fun _ h => latch_of_writeLatches h hbank hw⟩
  case bank1 =>
    have hbank : p.val / 32 = 1 := bank_of_ge hp (p.isLt.trans (by decide))
    exact ⟨fun _ h => latch_of_writeLatches h hbank hw, fun _ h => latch_of_writeLatches h hbank hw⟩

/-- A table is made from its own entries. -/
theorem pinTable_entries {α : Type} (t : Vector α 54) : (pinTable fun p => t[p]) = t :=
  Vector.ext fun i hi => pinTable_get _ i hi

/-- Writing back the view of a select register changes no field, whatever its reserved bits held (R103). -/
theorem RegFile.writeFsel_fselWord (rf : RegFile) (r : Nat) (free : Word) : rf.writeFsel r (fselWord rf r free) = rf := by
  have hfields : (fun p : Pin => if p.val / 10 = r then fselField (fselWord rf r free) (p.val % 10) else rf.fsel[p]) =
      fun p : Pin => rf.fsel[p] := by
    funext p
    split
    next hr => rw [← hr, fselField_fselWord]
    next => rfl
  rw [RegFile.writeFsel, hfields, pinTable_entries]

/-- Settles O40: an open controller writes back the view it read, and a closed one reaches the register neither time. -/
theorem fselWriteBackUnchanged : Obligations.FselWriteBackUnchanged := by
  intro s t r hr h
  obtain ⟨⟨u, e⟩, hread, hsettle⟩ := andThen_eq_next h
  obtain ⟨k, hk, ⟨s', he, hbus, hu⟩ | ⟨st, he, hu⟩⟩ := readReg_cases hread <;> cases hu <;> cases hsettle
  case inl =>
    cases (if_pos hr : busRead r s = .next (readFsel r s)).symm.trans hbus
    have hactor : ((readFsel r s).modifyActor fun k => k.setT (readFsel r s).rdata).actor? =
        some (k.setT (readFsel r s).rdata) := by
      rw [State.modifyActor_actor, busRead_actor hbus, hk, Option.map_some]
    refine ⟨_, congrArg settleError (writeReg_next hactor he (if_pos hr)), ?_⟩
    exact RegFile.writeFsel_fselWord s.rf r _
  case inr =>
    have hactor := endCommand_actor st false s
    rw [hk, Option.map_some] at hactor
    exact ⟨_, congrArg settleError (writeReg_error hactor he), rfl⟩

/-! ## Refused transactions -/

/-- Settles O50: the listed rows by name, and every other index is not a listed word. -/
theorem refusedTransactions : Obligations.RefusedTransactions := by
  intro s v i
  simp only [decodeBus_read, decodeBus_write]
  refine ⟨?listed, fun hi => ?unlisted, fun j hj => ?writeOnly, fun j hj => ?readOnly, fun j hj => ?unlistedWord⟩
  case listed => and_intros <;> rfl
  case unlisted => exact ⟨busInstr_of_not_listed hi false v, busInstr_of_not_listed hi true v⟩
  all_goals simp only [List.mem_cons, List.not_mem_nil, or_false] at hj
  case writeOnly => obtain rfl | rfl | rfl | rfl | rfl | rfl := hj <;> rfl
  case readOnly => obtain rfl | rfl := hj <;> rfl
  case unlistedWord => obtain rfl | rfl := hj <;> rfl

end Sys2Proof.Machine
end

section
/-! Proof of the statement of 40_register_file.md about draws (O58): two runs of an instruction from states that differ in
the draws they will take stay in step, since a word written back goes to the register it was read from, which ignores the
draws in it (R103, R112, R167). -/

namespace Sys2Proof.Machine

/-! ## Writes that ignore the reserved bits -/

/-- A write of PUD looks at the low two bits only (R112). -/
theorem busWrite_pud_congr {v w : Word} (h : low2 v = low2 w) : busWrite pudIndex v = busWrite pudIndex w := by
  funext s
  simp only [busWrite_pud, RegFile.writePud, h]

/-- Writes of words that the register does not tell apart are one micro-op. -/
theorem performMicro_write_congr {i : Nat} {v w : Word} (h : busWrite i v = busWrite i w) :
    performMicro (.write i v) = performMicro (.write i w) := by
  funext s
  simp only [performMicro, writeReg, h]

/-- Replacing a field keeps words alike in their low two bits. -/
theorem low2_replaceField_congr {v w : Word} (h : low2 v = low2 w) (shift : Nat) (d : PinDirection) :
    low2 (replaceField v shift d) = low2 (replaceField w shift d) := by
  apply BitVec.eq_of_getLsbD_eq
  intro i hi
  have hbit : v.getLsbD i = w.getLsbD i := by
    simpa [low2, hi] using congrArg (fun x : BitVec 2 => x.getLsbD i) h
  simp only [low2, BitVec.getLsbD_extractLsb', Nat.zero_add, getLsbD_replaceField _ _ _ (show i < 32 by omega), hbit]

/-- A write of FSELr looks at the fields of its pins only (R103). -/
theorem RegFile.writeFsel_congr (rf : RegFile) {r : Nat} {v w : Word}
    (h : ∀ q : Pin, q.val / 10 = r → fselField v (q.val % 10) = fselField w (q.val % 10)) :
    rf.writeFsel r v = rf.writeFsel r w :=
  congrArg (fun f => { rf with fsel := pinTable f }) (funext fun q => ite_congr rfl (h q) fun _ => rfl)

/-- Of a select register read and written back with one field replaced, no draw is written (R103, R180). -/
theorem writeFsel_replaceField_fselWord (rf rf' : RegFile) (p : Nat) (d : PinDirection) (free free' : Word) :
    rf'.writeFsel (p / 10) (replaceField (fselWord rf (p / 10) free) (fselShift p) d) =
      rf'.writeFsel (p / 10) (replaceField (fselWord rf (p / 10) free') (fselShift p) d) := by
  refine rf'.writeFsel_congr fun q hq => ?_
  rw [fselField_replaceField, fselField_replaceField, ← hq, fselField_fselWord, fselField_fselWord]

/-- Whatever register a SETUP's pin leads it to read, the word it writes back there is the same for all draws: a select
register and the pull control ignore the draws (R103, R112), and the level registers take no write (R110). -/
theorem busWrite_replaceField_congr {p : Nat} {s s' a b : State} (hrf : s'.rf = s.rf) (d : PinDirection)
    (ha : busRead (fselIndex p) s = .next a) (hb : busRead (fselIndex p) s' = .next b) :
    busWrite (fselIndex p) (replaceField a.rdata (fselShift p) d) =
      busWrite (fselIndex p) (replaceField b.rdata (fselShift p) d) := by
  obtain ⟨hi, rfl⟩ | ⟨hi, -⟩ | ⟨hi, rfl⟩ := busRead_cases ha
  · cases (if_pos hi : busRead _ s' = .next (readFsel _ s')).symm.trans hb
    funext u
    refine (if_pos hi).trans (Eq.trans ?_ (if_pos hi).symm)
    simp only [writeFsel, readFsel, State.draw_rdata, State.answer_rdata, hrf, fselIndex_eq_div]
    exact congrArg (fun rf => Host.Outcome.next (u.withRf rf)) (writeFsel_replaceField_fselWord s.rf u.rf p d _ _)
  · funext u
    obtain hi | hi := hi <;> rw [hi] <;> rfl
  · rw [hi] at hb ⊢
    cases hb
    refine busWrite_pud_congr (low2_replaceField_congr ?_ _ _)
    simp only [readPud, State.draw_rdata, State.answer_rdata, low2_pudWord, hrf]

/-! ## Programs with two temporaries -/

/-- At step `n` the program of `c` does the same with either temporary. -/
def SameMicro (c : Command) (n : Nat) (t t' : Word) : Prop :=
  (microOp c n t).map performMicro = (microOp c n t').map performMicro

/-- The pull latch sequence writes the same whatever it has read: it replaces the two bits that count (R165, R167). -/
theorem pullOp_ignores_t (pin : BitVec 32) (mode : PullMode) (n : Nat) (t t' : Word) :
    (pullOp pin mode n t).map performMicro = (pullOp pin mode n t').map performMicro :=
  match n with
  | 2 => congrArg some (performMicro_write_congr (busWrite_pud_congr (by rw [low2_stage, low2_stage])))
  | 5 => congrArg some (performMicro_write_congr (busWrite_pud_congr (by rw [low2_clear, low2_clear])))
  | 0 | 1 | 3 | 4 | 6 | _ + 7 => rfl

/-- Only the last step of a SETUP looks at the temporary (R149). -/
theorem sameMicro_of_not_setup_last {c : Command} {n : Nat} (h : ∀ pin d m, c = .setup pin d m → n ≠ 8) (t t' : Word) :
    SameMicro c n t t' := by
  cases c with
  | openCmd | closeCmd | output pin level | input pin => rfl
  | setPull pin mode =>
    match n with
    | 0 => rfl
    | n + 1 => exact pullOp_ignores_t pin mode (n + 1) t t'
  | setup pin d mode =>
    match n, h pin d mode rfl with
    | 2, _ => exact pullOp_ignores_t pin mode 2 t t'
    | 5, _ => exact pullOp_ignores_t pin mode 5 t t'
    | 0, _ | 1, _ | 3, _ | 4, _ | 6, _ | 7, _ | _ + 9, _ => rfl

/-! ## Two runs of one micro-op -/

/-- The acting controllers of two states are open alike. -/
def SameOpen (s s' : State) : Prop := ∀ k k', s.actor? = some k → s'.actor? = some k' → k'.isOpen = k.isOpen

theorem sameOpen_of_actor {s s' : State} {k k' : Ctrl} (hk : s.actor? = some k) (hk' : s'.actor? = some k')
    (h : k'.isOpen = k.isOpen) : SameOpen s s' := by
  intro l l' hl hl'
  cases hk.symm.trans hl
  cases hk'.symm.trans hl'
  exact h

/-- What a bus write makes of the register file does not depend on the rest of the state. -/
theorem busWrite_rf_congr {i : Nat} {v : Word} {s s' a : State} (hrf : s'.rf = s.rf) (h : busWrite i v s = .next a) :
    busWrite i v s' = .next (s'.withRf a.rf) := by
  unfold busWrite writeSet writeClr writeLatches writePudclk at h ⊢
  split_ifs at h ⊢ <;> cases h <;> simp [writeFsel, writePud, hrf]

theorem readReg_rf {i : Nat} {s : State} {r : State × Option Status} (h : readReg i s = .next r) : r.1.rf = s.rf := by
  obtain ⟨k, -, ⟨s', -, hbus, rfl⟩ | ⟨e, -, rfl⟩⟩ := readReg_cases h
  · exact (busRead_rf hbus : s'.rf = s.rf)
  · rfl

/-- A READ_REG that raises no error reads the bus into the temporary (R146). -/
theorem readReg_temp {i : Nat} {s : State} {r : State × Option Status} {k : Ctrl} (h : readReg i s = .next r)
    (he : r.2 = none) (hk : r.1.actor? = some k) : ∃ a, busRead i s = .next a ∧ k.t = a.rdata := by
  obtain ⟨k₀, hk₀, ⟨a, -, hbus, rfl⟩ | ⟨e, -, rfl⟩⟩ := readReg_cases h
  · rw [State.modifyActor_actor, busRead_actor hbus, hk₀, Option.map_some] at hk
    cases hk
    exact ⟨a, hbus, rfl⟩
  · cases he

/-- The error a READ_REG raises is that of its checks (R146). -/
theorem readReg_raises {i : Nat} {s : State} {r : State × Option Status} (h : readReg i s = .next r) :
    ∃ k, s.actor? = some k ∧ rawError k i = r.2 := by
  obtain ⟨k, hk, ⟨s', he, -, rfl⟩ | ⟨e, he, rfl⟩⟩ := readReg_cases h <;> exact ⟨k, hk, he⟩

/-- The error a WRITE_REG raises is that of its checks (R147). -/
theorem writeReg_raises {i : Nat} {v : Word} {s : State} {r : State × Option Status} (h : writeReg i v s = .next r) :
    ∃ k, s.actor? = some k ∧ rawError k i = r.2 := by
  obtain ⟨k, hk, ⟨s', he, -, rfl⟩ | ⟨e, he, rfl⟩⟩ := writeReg_cases h <;> exact ⟨k, hk, he⟩

theorem rawError_congr {k k' : Ctrl} (h : k'.isOpen = k.isOpen) (i : Nat) : rawError k' i = rawError k i := by
  rw [rawError, rawError, h]

theorem entryError_congr {k k' : Ctrl} (h : k'.isOpen = k.isOpen) (pc : PinCheck) (pin : BitVec 32) :
    entryError pc k' pin = entryError pc k pin := by
  rw [entryError, entryError, h]

/-- A micro-op performed in two states with the same register file makes the same register file of it. -/
theorem performMicro_rf_congr {op : MicroOp} {s s' : State} {r r' : State × Option Status} (hrf : s'.rf = s.rf)
    (hopen : SameOpen s s') (h : performMicro op s = .next r) (h' : performMicro op s' = .next r') :
    r'.1.rf = r.1.rf := by
  cases op with
  | entry pin =>
    obtain ⟨k, -, h⟩ := withActor_eq_next h
    obtain ⟨k', -, h'⟩ := withActor_eq_next h'
    cases h; cases h'
    exact hrf
  | openWindow | closeWindow =>
    obtain ⟨k, -, h⟩ := withActor_eq_next h
    obtain ⟨k', -, h'⟩ := withActor_eq_next h'
    split at h <;> split at h' <;> cases h <;> cases h' <;> exact hrf
  | read i => exact (readReg_rf h').trans (hrf.trans (readReg_rf h).symm)
  | write i v =>
    obtain ⟨k, hk, hcase⟩ := writeReg_cases h
    obtain ⟨k', hk', hcase'⟩ := writeReg_cases h'
    rw [rawError_congr (hopen k k' hk hk')] at hcase'
    obtain ⟨a, he, hbus, rfl⟩ | ⟨e, he, rfl⟩ := hcase <;> obtain ⟨a', he', hbus', rfl⟩ | ⟨e', he', rfl⟩ := hcase'
    · cases (busWrite_rf_congr hrf hbus).symm.trans hbus'
      rfl
    · cases he.symm.trans he'
    · cases he.symm.trans he'
    · exact hrf

/-- A micro-op that is not OPEN's or CLOSE's own raises the same error in two states that check pins alike. -/
theorem performMicro_error_congr {op : MicroOp} {s s' : State} {r r' : State × Option Status} (hop : ¬ op.IsWindow)
    (hpc : s'.pinCheck = s.pinCheck) (hopen : SameOpen s s') (h : performMicro op s = .next r)
    (h' : performMicro op s' = .next r') : r'.2 = r.2 := by
  cases op with
  | openWindow | closeWindow => exact absurd trivial hop
  | entry pin =>
    obtain ⟨k, hk, h⟩ := withActor_eq_next h
    obtain ⟨k', hk', h'⟩ := withActor_eq_next h'
    cases h; cases h'
    rw [hpc, entryError_congr (hopen k k' hk hk')]
  | read i =>
    obtain ⟨k, hk, he⟩ := readReg_raises h
    obtain ⟨k', hk', he'⟩ := readReg_raises h'
    rw [← he', ← he, rawError_congr (hopen k k' hk hk')]
  | write i v =>
    obtain ⟨k, hk, he⟩ := writeReg_raises h
    obtain ⟨k', hk', he'⟩ := writeReg_raises h'
    rw [← he', ← he, rawError_congr (hopen k k' hk hk')]

/-! ## Two runs of one command -/

/-- Two controllers in step: both idle, or at the same step of the same command, open alike, and with temporaries that the
program does not tell apart at this step. -/
structure CtrlInStep (k k' : Ctrl) : Prop where
  cmd : k'.cmd = k.cmd
  busy : ∀ c, k.cmd = some c → k'.isOpen = k.isOpen ∧ k'.step = k.step ∧ SameMicro c k.step k.t k'.t

/-- Two states in step: the same register file and parameter, and acting controllers in step. -/
structure InStep (s s' : State) : Prop where
  rf : s'.rf = s.rf
  pinCheck : s'.pinCheck = s.pinCheck
  actor : ∀ k k', s.actor? = some k → s'.actor? = some k' → CtrlInStep k k'

/-- Idle controllers are in step. -/
theorem ctrlInStep_idle {k k' : Ctrl} (h : k.cmd = none) (h' : k'.cmd = none) : CtrlInStep k k' :=
  ⟨h'.trans h.symm, fun _ hc => nomatch h.symm.trans hc⟩

/-- OPEN's and CLOSE's own micro-op is the last of its program (R149). -/
theorem last_of_window {c : Command} {n : Nat} {t : Word} {op : MicroOp} (h : microOp c n t = some op)
    (hw : op.IsWindow) : n + 1 = programLength c := by
  have hone := programLength_of_window h hw
  rcases n with - | n
  · exact hone.symm
  · cases c <;> cases hone <;> cases h

/-- After a micro-op without an error, the program does not tell the temporaries of the two runs apart: the one word a SETUP
writes back has just been read in both. -/
theorem sameMicro_succ {c : Command} {n : Nat} {op : MicroOp} {s s' : State} {r r' : State × Option Status} {k k' : Ctrl}
    {t : Word} (ho : microOp c n t = some op) (hrf : s'.rf = s.rf) (h : performMicro op s = .next r)
    (h' : performMicro op s' = .next r') (he : r.2 = none) (he' : r'.2 = none) (hk : r.1.actor? = some k)
    (hk' : r'.1.actor? = some k') : SameMicro c (n + 1) k.t k'.t := by
  by_cases hsetup : ∃ pin d m, c = .setup pin d m ∧ n = 7
  · obtain ⟨pin, d, m, rfl, rfl⟩ := hsetup
    cases ho
    obtain ⟨a, hbus, hkt⟩ := readReg_temp h he hk
    obtain ⟨a', hbus', hkt'⟩ := readReg_temp h' he' hk'
    rw [hkt, hkt']
    exact congrArg some (performMicro_write_congr (busWrite_replaceField_congr hrf d hbus hbus'))
  · exact sameMicro_of_not_setup_last (fun pin d m hc hn => hsetup ⟨pin, d, m, hc, by omega⟩) _ _

theorem concludeMicro_rf (c : Command) (n : Nat) (e : Option Status) (s : State) : (concludeMicro c n e s).rf = s.rf := by
  unfold concludeMicro
  split <;> rfl

/-- The acting controller after a micro-op step that ends its command. -/
theorem concludeMicro_idle {c : Command} {n : Nat} {e : Option Status} {s : State} {k : Ctrl}
    (hend : n + 1 = programLength c ∨ e.isSome = true) (hk : (concludeMicro c n e s).actor? = some k) : k.cmd = none := by
  rw [concludeMicro, if_pos hend, endCommand_actor, Option.map_eq_some_iff] at hk
  obtain ⟨k₀, -, rfl⟩ := hk
  rfl

/-- Controllers at the same step advance in step, if the program does not tell their temporaries apart at the next. -/
theorem ctrlInStep_advance {c : Command} {k k' : Ctrl} (hc : k.cmd = some c) (hcmd : k'.cmd = k.cmd)
    (hopen : k'.isOpen = k.isOpen) (hstep : k'.step = k.step) (ht : SameMicro c (k.step + 1) k.t k'.t) :
    CtrlInStep k.advance k'.advance := by
  refine ⟨hcmd, fun c' hc' => ?_⟩
  cases hc.symm.trans hc'
  exact ⟨hopen, congrArg (· + 1) hstep, ht⟩

/-- After the micro-op of its step in two states, a command ends in both, or advances in both and in step. -/
theorem concludeMicro_ctrlInStep {c : Command} {op : MicroOp} {s s' : State} {r r' : State × Option Status} {k k' : Ctrl}
    (h : InStep s s') (hk : s.actor? = some k) (hk' : s'.actor? = some k') (hc : k.cmd = some c)
    (ho : microOp c k.step k.t = some op) (hr : performMicro op s = .next r) (hr' : performMicro op s' = .next r')
    {l l' : Ctrl} (hl : (concludeMicro c k.step r.2 r.1).actor? = some l)
    (hl' : (concludeMicro c k.step r'.2 r'.1).actor? = some l') : CtrlInStep l l' := by
  obtain ⟨hcmd, hbusy⟩ := h.actor k k' hk hk'
  obtain ⟨hopen, hstep, -⟩ := hbusy c hc
  by_cases hlast : k.step + 1 = programLength c
  · exact ctrlInStep_idle (concludeMicro_idle (.inl hlast) hl) (concludeMicro_idle (.inl hlast) hl')
  have hop : ¬ op.IsWindow := fun hw => hlast (last_of_window ho hw)
  have herror := performMicro_error_congr hop h.pinCheck (sameOpen_of_actor hk hk' hopen) hr hr'
  cases he : r.2 with
  | some st =>
    exact ctrlInStep_idle (concludeMicro_idle (.inr (by rw [he]; rfl)) hl)
      (concludeMicro_idle (.inr (by rw [herror, he]; rfl)) hl')
  | none =>
    have he' : r'.2 = none := herror.trans he
    obtain ⟨k₁, hk₁, hsame, hopen₁⟩ := performMicro_actor hk hr
    obtain ⟨k₁', hk₁', hsame', hopen₁'⟩ := performMicro_actor hk' hr'
    rw [he, concludeMicro_advance hlast, State.modifyActor_actor, hk₁, Option.map_some] at hl
    rw [he', concludeMicro_advance hlast, State.modifyActor_actor, hk₁', Option.map_some] at hl'
    cases hl
    cases hl'
    refine ctrlInStep_advance (hsame.cmd.trans hc) ?cmd ?isOpen ?step ?temp
    case cmd => rw [hsame'.cmd, hsame.cmd, hcmd]
    case isOpen => rw [hopen₁' hop, hopen₁ hop, hopen]
    case step => rw [hsame'.step, hsame.step, hstep]
    case temp =>
      rw [hsame.step]
      exact sameMicro_succ ho h.rf hr hr' he he' hk₁ hk₁'

/-- Two runs in step take the next micro-op step in step. -/
theorem microStep_inStep {s s' t t' : State} (h : InStep s s') (e : microStep s = .next t)
    (e' : microStep s' = .next t') : InStep t t' := by
  obtain ⟨k, hk, hcase⟩ := microStep_cases e
  obtain ⟨k', hk', hcase'⟩ := microStep_cases e'
  obtain ⟨hcmd, hbusy⟩ := h.actor k k' hk hk'
  obtain ⟨hidle, rfl⟩ | ⟨c, op, r, hc, ho, hr, rfl⟩ := hcase <;>
    obtain ⟨hidle', rfl⟩ | ⟨c', op', r', hc', ho', hr', rfl⟩ := hcase'
  · exact h
  · cases (hcmd.trans hidle).symm.trans hc'
  · cases hidle'.symm.trans (hcmd.trans hc)
  cases hc'.symm.trans (hcmd.trans hc)
  obtain ⟨hopen, hstep, hsame⟩ := hbusy c hc
  rw [hstep] at ho' ⊢
  have hop : performMicro op' = performMicro op := by
    rw [SameMicro, ho, ho'] at hsame
    exact (Option.some.inj hsame).symm
  rw [hop] at hr'
  refine ⟨?rf, ?pinCheck, fun l l' hl hl' => concludeMicro_ctrlInStep h hk hk' hc ho hr hr' hl hl'⟩
  case rf =>
    rw [concludeMicro_rf, concludeMicro_rf, performMicro_rf_congr h.rf (sameOpen_of_actor hk hk' hopen) hr hr']
  case pinCheck =>
    obtain ⟨-, hpc, -⟩ := quiet_microStep e
    obtain ⟨-, hpc', -⟩ := quiet_microStep e'
    rw [hstep] at hpc'
    rw [hpc', hpc, h.pinCheck]

/-- Two runs in step make the same register file of the rest of the command. -/
theorem runToEnd_inStep {n : Nat} {s s' t t' : State} (h : InStep s s') (e : runToEnd n s = .next t)
    (e' : runToEnd n s' = .next t') : t'.rf = t.rf := by
  induction n generalizing s s' with
  | zero =>
    cases e
    cases e'
    exact h.rf
  | succ n ih =>
    obtain ⟨k, hk, -⟩ := withActor_eq_next e
    obtain ⟨k', hk', -⟩ := withActor_eq_next e'
    have hcmd : k'.cmd = k.cmd := (h.actor k k' hk hk').cmd
    cases hc : k.cmd with
    | none =>
      rw [runToEnd_idle hk hc] at e
      rw [runToEnd_idle hk' (hcmd.trans hc)] at e'
      cases e
      cases e'
      exact h.rf
    | some c =>
      rw [runToEnd_succ hk hc] at e
      rw [runToEnd_succ hk' (hcmd.trans hc)] at e'
      obtain ⟨u, hu, e⟩ := andThen_eq_next e
      obtain ⟨u', hu', e'⟩ := andThen_eq_next e'
      exact ih (microStep_inStep h hu hu') e e'

/-! ## Two runs of one instruction -/

/-- Two states that differ at most in the draws they will take: the same register file, parameter and acting controller. -/
structure DrawsApart (s s' : State) : Prop where
  rf : s'.rf = s.rf
  pinCheck : s'.pinCheck = s.pinCheck
  actor : s'.actor? = s.actor?

/-- A command makes the same register file of states that differ in draws only. -/
theorem runCommand_drawsApart {c : Command} {s s' t t' : State} (h : DrawsApart s s') (e : runCommand c s = .next t)
    (e' : runCommand c s' = .next t') : t'.rf = t.rf := by
  obtain ⟨u, hu, e⟩ := andThen_eq_next e
  obtain ⟨u', hu', e'⟩ := andThen_eq_next e'
  obtain ⟨k, hk, -, rfl⟩ := acceptCommand_cases hu
  obtain ⟨k', hk', -, rfl⟩ := acceptCommand_cases hu'
  have haccept : InStep (s.modifyActor fun k => k.accept c) (s'.modifyActor fun k => k.accept c) := by
    refine ⟨h.rf, h.pinCheck, fun l l' hl hl' => ?_⟩
    rw [State.modifyActor_actor, h.actor, ← State.modifyActor_actor, hl] at hl'
    cases hl'
    exact ⟨rfl, fun _ _ => ⟨rfl, rfl, rfl⟩⟩
  exact runToEnd_inStep haccept e e'

/-- A raw access's own answer has the register file its micro-op leaves (R202). -/
theorem settleError_rf {o : MicroResult} {t : State} (h : settleError o = .next t) :
    ∃ r, o = .next r ∧ t.rf = r.1.rf := by
  obtain ⟨⟨u, e⟩, ho, hsettle⟩ := andThen_eq_next h
  cases hsettle
  cases e <;> exact ⟨_, ho, rfl⟩

/-- An instruction makes the same register file of states that differ in draws only. -/
theorem exec_drawsApart {i : Instr} {s s' t t' : State} (h : DrawsApart s s') (e : exec i s = .next t)
    (e' : exec i s' = .next t') : t'.rf = t.rf := by
  obtain ⟨c, hi⟩ | ⟨op, -, hi⟩ | ⟨n, hi⟩ | ⟨n, v, hi⟩ := exec_meaning i
  all_goals rw [hi] at e e'
  · exact runCommand_drawsApart h e e'
  · obtain ⟨r, hr, ht⟩ := settleError_rf e
    obtain ⟨r', hr', ht'⟩ := settleError_rf e'
    have hopen : SameOpen s s' := fun k k' hk hk' => by
      cases (h.actor.trans hk).symm.trans hk'
      rfl
    rw [ht', ht, performMicro_rf_congr h.rf hopen hr hr']
  · rw [busRead_rf e', busRead_rf e, h.rf]
  · cases (busWrite_rf_congr h.rf e).symm.trans e'
    rfl

/-- Settles O58: the second state has the register file, the parameter and the controllers of the first. -/
theorem drawsNeverReachRegisterFile : Obligations.DrawsNeverReachRegisterFile := by
  intro i s t t' n os ls e e'
  have h : DrawsApart s { s with draws := n, opens := os, levels := ls } := ⟨rfl, rfl, rfl⟩
  exact (exec_drawsApart h e e').symm

end Sys2Proof.Machine
end

section
/-! Proof of the statement about the sole checked use (O52, R148, R234, R45): in every program each micro-op answers, and it
brings the pull latch from where the program has it at one step to where it has it at the next. -/

namespace Sys2Proof.Machine

/-! ## Where a program has the pull latch -/

/-- Where the program of `c` has the pull latch before its step `n` (R165, R180, R234). -/
def Command.Phase (c : Command) (n : Nat) (rf : RegFile) : Prop :=
  match c with
  | .setPull pin mode | .setup pin _ mode => pullPhase rf pin mode n
  | .openCmd | .closeCmd | .output _ _ | .input _ => rf.SeqIdle

theorem latchPhase_idle {rf : RegFile} {k : Ctrl} (h : k.cmd = none) : latchPhase rf k ↔ rf.SeqIdle := by
  simp [latchPhase, h]

theorem latchPhase_busy {rf : RegFile} {k : Ctrl} {c : Command} (h : k.cmd = some c) :
    latchPhase rf k ↔ c.Phase k.step rf := by
  cases c <;> simp [latchPhase, Command.Phase, h]

/-- Every program starts with the pull latch idle. -/
theorem Command.phase_zero (c : Command) (rf : RegFile) : c.Phase 0 rf ↔ rf.SeqIdle := by
  cases c <;> rfl

/-- No program's first step changes the pull latch. -/
theorem Command.phase_one (c : Command) (rf : RegFile) : c.Phase 1 rf ↔ rf.SeqIdle := by
  cases c <;> rfl

/-- Every program ends with the pull latch idle (R45). -/
theorem Command.phase_programLength (c : Command) (rf : RegFile) : c.Phase (programLength c) rf ↔ rf.SeqIdle := by
  cases c <;> rfl

/-! ## Micro-ops that answer without an error -/

/-- The micro-op answers in `s` without an error, and leaves this register file. -/
def Answers (op : MicroOp) (s : State) (rf : RegFile) : Prop :=
  ∃ t, performMicro op s = .next (t, none) ∧ t.rf = rf

theorem answers_read {s s' : State} {k : Ctrl} {i : Nat} (hk : s.actor? = some k) (ho : k.isOpen = true) (hi : i < 1024)
    (h : busRead i s = .next s') : Answers (.read i) s s.rf :=
  ⟨_, readReg_next hk (rawError_none ho hi) h, (busRead_rf h : s'.rf = s.rf)⟩

theorem answers_write {s : State} {k : Ctrl} {i : Nat} {v : Word} {rf : RegFile} (hk : s.actor? = some k)
    (ho : k.isOpen = true) (hi : i < 1024) (h : busWrite i v s = .next (s.withRf rf)) : Answers (.write i v) s rf :=
  ⟨_, writeReg_next hk (rawError_none ho hi) h, rfl⟩

/-- The clock register of a valid pin is in the window (R148). -/
theorem pudclkIndex_lt {p : Nat} (hp : p < 54) : pudclkIndex p < 1024 := by
  simp only [pudclkIndex, bank]
  omega

theorem setIndex_lt {p : Nat} (hp : p < 54) : setIndex p < 1024 := by
  simp only [setIndex, bank]
  omega

theorem clrIndex_lt {p : Nat} (hp : p < 54) : clrIndex p < 1024 := by
  simp only [clrIndex, bank]
  omega

theorem levIndex_lt {p : Nat} (hp : p < 54) : levIndex p < 1024 := by
  simp only [levIndex, bank]
  omega

theorem fselIndex_lt {p : Nat} (hp : p < 54) : fselIndex p < 1024 := by
  rw [fselIndex_eq_div]
  omega

/-- Strobing a valid pin while no strobe is asserted leaves its clock alone asserted (R165, step 3). -/
theorem RegFile.clk_strobe {rf : RegFile} (h : rf.NoStrobe) (p : Nat) (q : Pin) :
    (rf.writePudclk (p / 32) (onehot p)).clk[q] = decide (q.val = p) := by
  have hclk : rf.clk[q] = false := h q
  rw [RegFile.writePudclk_clk, pinTable_pin, getLsbD_onehot, hclk]
  split
  · exact decide_eq_decide.mpr (by omega)
  · exact (decide_eq_false (by omega)).symm

/-- Writing 0 to the clock register of the one pin whose clock is asserted leaves no strobe (R165, step 6). -/
theorem RegFile.noStrobe_release {rf : RegFile} {p : Nat} (h : ∀ q : Pin, rf.clk[q] = decide (q.val = p)) :
    (rf.writePudclk (p / 32) 0).NoStrobe := by
  intro q
  rw [RegFile.writePudclk_clk, pinTable_pin, h q]
  split
  · exact BitVec.getLsbD_zero
  · exact decide_eq_false (by omega)

/-- Each step of the pull latch sequence of a valid pin answers, and takes the pull latch to the next phase (R165). -/
theorem pullOp_answers {s : State} {k : Ctrl} {pin : BitVec 32} {mode : PullMode} {n : Nat} (t : Word)
    (hk : s.actor? = some k) (ho : k.isOpen = true) (hp : pin.toNat < 54) (hpos : 1 ≤ n) (hle : n ≤ 6)
    (h : pullPhase s.rf pin mode n) :
    ∃ op rf, pullOp pin mode n t = some op ∧ Answers op s rf ∧ pullPhase rf pin mode (n + 1) := by
  have hpud : pudIndex < 1024 := by decide
  match n, h with
  | 1, h => exact ⟨_, _, rfl, answers_read hk ho hpud (busRead_pud s), h⟩
  | 2, ⟨_, hclk⟩ => exact ⟨_, _, rfl, answers_write hk ho hpud (busWrite_pud _ s), low2_stage t mode, hclk⟩
  | 3, ⟨hstage, hclk⟩ =>
    exact ⟨_, _, rfl, answers_write hk ho (pudclkIndex_lt hp) (busWrite_strobe _ hp s), hstage,
      RegFile.clk_strobe hclk pin.toNat⟩
  | 4, h => exact ⟨_, _, rfl, answers_read hk ho hpud (busRead_pud s), h⟩
  | 5, ⟨_, hclk⟩ => exact ⟨_, _, rfl, answers_write hk ho hpud (busWrite_pud _ s), low2_clear t, hclk⟩
  | 6, ⟨hstage, hclk⟩ =>
    exact ⟨_, _, rfl, answers_write hk ho (pudclkIndex_lt hp) (busWrite_release _ hp s), hstage,
      RegFile.noStrobe_release hclk⟩

/-- The first seven steps of SETUP are those of SET_PULL (R180). -/
theorem microOp_setup_eq_setPull (pin : BitVec 32) (dir : PinDirection) (mode : PullMode) {n : Nat} {t : Word}
    (h : n ≤ 6) : microOp (.setup pin dir mode) n t = microOp (.setPull pin mode) n t :=
  match n with
  | 0 | 1 | 2 | 3 | 4 | 5 | 6 => rfl

/-- At the first step every program answers, an error or not, and leaves the register file alone (R141 to R143). -/
theorem microOp_zero_answers {s : State} {k : Ctrl} (hk : s.actor? = some k) (c : Command) (t : Word) :
    ∃ op r, microOp c 0 t = some op ∧ performMicro op s = .next r ∧ r.1.rf = s.rf := by
  cases c with
  | openCmd =>
    refine ⟨.openWindow, ?_⟩
    rw [performMicro, openWindow, withActor_some hk]
    split <;> exact ⟨_, rfl, rfl, rfl⟩
  | closeCmd =>
    refine ⟨.closeWindow, ?_⟩
    rw [performMicro, closeWindow, withActor_some hk]
    split <;> exact ⟨_, rfl, rfl, rfl⟩
  | setPull pin _ | setup pin _ _ | output pin _ | input pin => exact ⟨.entry pin, _, rfl, withActor_some hk _, rfl⟩

/-- Past ENTRY with a checked pin, each step of a program answers without an error, and takes the pull latch to the next
phase (R148). -/
theorem microOp_succ_answers {s : State} {k : Ctrl} {c : Command} {n : Nat} (t : Word) (hk : s.actor? = some k)
    (ho : k.isOpen = true) (hallowed : pinAllowed .checked c) (hlt : n + 1 < programLength c)
    (h : c.Phase (n + 1) s.rf) :
    ∃ op rf, microOp c (n + 1) t = some op ∧ Answers op s rf ∧ c.Phase (n + 2) rf := by
  cases c with
  | openCmd | closeCmd => exact absurd hlt (Nat.not_lt.mpr (Nat.le_add_left 1 n))
  | setPull pin mode => exact pullOp_answers t hk ho (hallowed rfl) (Nat.le_add_left 1 n) (Nat.le_of_lt_succ hlt) h
  | setup pin dir mode =>
    have hp : pin.toNat < 54 := hallowed rfl
    obtain hle | rfl | rfl : n + 1 ≤ 6 ∨ n = 6 ∨ n = 7 := by
      have hlt : n + 1 < 9 := hlt
      omega
    · rw [microOp_setup_eq_setPull pin dir mode hle]
      exact pullOp_answers t hk ho hp (Nat.le_add_left 1 n) hle h
    · exact ⟨_, _, rfl, answers_read hk ho (fselIndex_lt hp) (busRead_fsel _ hp s), h⟩
    · exact ⟨_, _, rfl, answers_write hk ho (fselIndex_lt hp) (busWrite_fsel _ hp _ s), h⟩
  | output pin level =>
    have hp : pin.toNat < 54 := hallowed rfl
    match n, hlt, level with
    | 0, _, .high => exact ⟨_, _, rfl, answers_write hk ho (setIndex_lt hp) (busWrite_set _ hp s), h⟩
    | 0, _, .low => exact ⟨_, _, rfl, answers_write hk ho (clrIndex_lt hp) (busWrite_clr _ hp s), h⟩
  | input pin =>
    have hp : pin.toNat < 54 := hallowed rfl
    match n, hlt with
    | 0, _ => exact ⟨_, _, rfl, answers_read hk ho (levIndex_lt hp) (busRead_lev _ hp s), h⟩

/-- Each step of a program of sound sequencing answers: the pull latch is then in the next phase, and idle if there was an
error. -/
theorem microOp_answers {s : State} {k : Ctrl} {c : Command} (hk : s.actor? = some k) (hc : k.cmd = some c)
    (hs : k.Sound .checked) (h : c.Phase k.step s.rf) :
    ∃ op r, microOp c k.step k.t = some op ∧ performMicro op s = .next r ∧ (r.2 = none ∨ r.1.rf.SeqIdle) ∧
      c.Phase (k.step + 1) r.1.rf := by
  obtain ⟨hlt, -, hpast⟩ := (Ctrl.sound_busy hc).mp hs
  cases hstep : k.step with
  | zero =>
    obtain ⟨op, r, hop, hr, hrf⟩ := microOp_zero_answers hk c k.t
    have hidle : s.rf.SeqIdle := (c.phase_zero s.rf).mp (hstep ▸ h)
    exact ⟨op, r, hop, hr, .inr (hrf ▸ hidle), hrf ▸ (c.phase_one s.rf).mpr hidle⟩
  | succ n =>
    rw [hstep] at hlt hpast h
    obtain ⟨ho, hallowed⟩ := hpast (Nat.succ_pos n)
    obtain ⟨op, _, hop, ⟨t, ht, rfl⟩, hphase⟩ := microOp_succ_answers k.t hk ho hallowed hlt h
    exact ⟨op, (t, none), hop, ht, .inl rfl, hphase⟩

/-- After a micro-op step the pull latch is where the program has it at its next step, or idle if the command ended. -/
theorem latchPhase_concludeMicro {c : Command} {n : Nat} {e : Option Status} {s : State} {k k' : Ctrl}
    (hk : s.actor? = some k) (hc : k.cmd = some c) (hn : k.step = n) (he : e = none ∨ s.rf.SeqIdle)
    (h : c.Phase (n + 1) s.rf) (hk' : (concludeMicro c n e s).actor? = some k') :
    latchPhase (concludeMicro c n e s).rf k' := by
  rw [concludeMicro_rf]
  by_cases hend : n + 1 = programLength c ∨ e.isSome = true
  · rw [latchPhase_idle (concludeMicro_idle hend hk')]
    rcases he with rfl | hidle
    · obtain hlast | herr := hend
      · exact (c.phase_programLength s.rf).mp (hlast ▸ h)
      · cases herr
    · exact hidle
  · obtain ⟨hlast, herr⟩ := not_or.mp hend
    obtain rfl : e = none := by simpa using herr
    rw [concludeMicro_advance hlast, State.modifyActor_actor, hk, Option.map_some] at hk'
    cases hk'
    rw [latchPhase_busy (k := k.advance) hc, Ctrl.advance_step, hn]
    exact h

/-! ## The sole checked use -/

/-- The controller that acts is the sole one, sound and with its pull latch in place. -/
theorem State.SoloChecked.actor {s : State} (h : s.SoloChecked) (hcur : s.cur = 0) :
    ∃ k, s.actor? = some k ∧ k.Sound .checked ∧ latchPhase s.rf k := by
  obtain ⟨-, hcheck, ⟨k, hctrls, hsound, hlatch⟩, -⟩ := h
  exact ⟨k, by rw [State.actor?, hctrls, hcur]; rfl, hcheck ▸ hsound, hlatch⟩

theorem State.SoloChecked.sound {s : State} (h : s.SoloChecked) : s.Sound := by
  obtain ⟨-, -, ⟨k, hctrls, hsound, -⟩, -⟩ := h
  intro k' hk'
  rw [hctrls, List.mem_singleton] at hk'
  exact hk' ▸ hsound

/-- A micro-op step of a sound controller with its pull latch in place answers, and leaves it in place. -/
theorem microStep_answers {s : State} {k : Ctrl} (hk : s.actor? = some k) (hs : k.Sound .checked)
    (h : latchPhase s.rf k) :
    ∃ t, microStep s = .next t ∧ ∀ k', t.actor? = some k' → latchPhase t.rf k' := by
  cases hc : k.cmd with
  | none =>
    refine ⟨s, by simp [microStep, withActor_some hk, hc], fun k' hk' => ?_⟩
    cases hk.symm.trans hk'
    exact h
  | some c =>
    obtain ⟨op, r, hop, hr, herr, hphase⟩ := microOp_answers hk hc hs ((latchPhase_busy hc).mp h)
    obtain ⟨k₁, hk₁, hsame, -⟩ := performMicro_actor hk hr
    refine ⟨_, by rw [microStep_eq hk hc hop, hr, andThen_next], fun k' hk' => ?_⟩
    exact latchPhase_concludeMicro hk₁ (hsame.cmd.trans hc) hsame.step herr hphase hk'

/-- What keeps the parameters, sound sequencing and the pull latch's place keeps the sole checked use. -/
theorem State.SoloChecked.quiet {s t : State} (h : s.SoloChecked) (hcur : s.cur = 0) (q : Quiet s t)
    (hlen : t.ctrls.length = s.ctrls.length) (hsound : t.Sound)
    (hlatch : ∀ k, t.actor? = some k → latchPhase t.rf k) : t.SoloChecked := by
  obtain ⟨hclear, hcheck, ⟨k, hctrls, -, -⟩, hsched⟩ := h
  obtain ⟨hclear', hcheck', hcur', hsched', -⟩ := q
  rw [hctrls] at hlen
  obtain ⟨k', hctrls'⟩ := List.length_eq_one_iff.mp hlen
  have hk' : t.actor? = some k' := by rw [State.actor?, hctrls', hcur', hcur]; rfl
  exact ⟨hclear'.trans hclear, hcheck'.trans hcheck, ⟨k', hctrls', hsound.actor hk', hlatch k' hk'⟩,
    hsched'.symm ▸ hsched⟩

/-- A result that is a state of the sole checked use. -/
def Safe (o : Result) : Prop := ∃ t, o = .next t ∧ t.SoloChecked

theorem soloChecked_microStep {s : State} (h : s.SoloChecked) (hcur : s.cur = 0) :
    ∃ t, microStep s = .next t ∧ t.SoloChecked ∧ t.cur = 0 := by
  obtain ⟨k, hk, hsound, hlatch⟩ := h.actor hcur
  obtain ⟨t, ht, hlatch'⟩ := microStep_answers hk hsound hlatch
  have hquiet := quiet_microStep ht
  have ⟨_, _, hcur', _⟩ := hquiet
  exact ⟨t, ht, h.quiet hcur hquiet (length_microStep ht) (sound_microStep h.sound ht) hlatch', hcur'.trans hcur⟩

theorem safe_runToEnd (n : Nat) {s : State} (h : s.SoloChecked) (hcur : s.cur = 0) : Safe (runToEnd n s) := by
  induction n generalizing s with
  | zero => exact ⟨s, rfl, h⟩
  | succ n ih =>
    obtain ⟨k, hk, -⟩ := h.actor hcur
    cases hc : k.cmd with
    | none => exact ⟨s, runToEnd_idle hk hc, h⟩
    | some c =>
      obtain ⟨t, ht, hsolo, hcur'⟩ := soloChecked_microStep h hcur
      rw [runToEnd_succ hk hc, ht, andThen_next]
      exact ih hsolo hcur'

/-- A change of the idle sole controller that keeps sequencing sound, and its pull latch in place, keeps the sole checked
use. -/
theorem State.SoloChecked.modifyIdle {s : State} {k : Ctrl} {f : Ctrl → Ctrl} (h : s.SoloChecked) (hcur : s.cur = 0)
    (hk : s.actor? = some k) (hc : k.cmd = none) (hsound : (s.modifyActor f).Sound)
    (hlatch : s.rf.SeqIdle → latchPhase s.rf (f k)) : (s.modifyActor f).SoloChecked := by
  refine h.quiet hcur (quiet_modifyActor s f) (State.modifyActor_length s f) hsound fun k' hk' => ?_
  obtain ⟨k₀, hk₀, -, hidle⟩ := h.actor hcur
  cases hk.symm.trans hk₀
  rw [State.modifyActor_actor, hk, Option.map_some] at hk'
  cases hk'
  exact hlatch ((latchPhase_idle hc).mp hidle)

/-- An idle controller accepts a legal word (R140). -/
theorem acceptCommand_idle {s : State} {k : Ctrl} (hk : s.actor? = some k) (hc : k.cmd = none) (c : Command) :
    acceptCommand c s = .next (s.modifyActor fun k => k.accept c) := by
  simp [acceptCommand, withActor_some hk, hc]

/-- An idle controller answers an illegal word (R205). -/
theorem rejectCommand_idle {s : State} {k : Ctrl} (hk : s.actor? = some k) (hc : k.cmd = none) :
    rejectCommand s = .next (s.modifyActor fun k => k.reject (rspWord .errIllegalCmd false)) := by
  simp [rejectCommand, withActor_some hk, hc]

section
variable {s : State} {k : Ctrl} (h : s.SoloChecked) (hcur : s.cur = 0) (hk : s.actor? = some k) (hc : k.cmd = none)
include h hcur hk hc

theorem soloChecked_withPending (ws : List (BitVec 64)) : (s.withPending ws).SoloChecked :=
  h.modifyIdle hcur hk hc (kept_sound.pending s ws h.sound) fun hidle => (latchPhase_idle hc).mpr hidle

theorem safe_rejectCommand : Safe (rejectCommand s) := by
  have hreject := rejectCommand_idle hk hc
  exact ⟨_, hreject, h.modifyIdle hcur hk hc (kept_sound.reject s _ h.sound hreject) fun hidle =>
    (latchPhase_idle (k := k.reject _) hc).mpr hidle⟩

/-- A command is accepted with the pull latch idle, as at its first step (R140). -/
theorem soloChecked_acceptCommand (c : Command) : ∃ t, acceptCommand c s = .next t ∧ t.SoloChecked ∧ t.cur = 0 := by
  have haccept := acceptCommand_idle hk hc c
  refine ⟨_, haccept, h.modifyIdle hcur hk hc (kept_sound.accept c s _ h.sound haccept) fun hidle => ?_, hcur⟩
  exact (latchPhase_busy (k := k.accept c) rfl).mpr ((c.phase_zero s.rf).mpr hidle)

theorem safe_issueWord (w : BitVec 64) : Safe (issueWord w s) := by
  cases hw : decodeCmd w with
  | error e =>
    rw [issueWord_illegal hw]
    exact safe_rejectCommand h hcur hk hc
  | ok i =>
    obtain ⟨c, hcmd⟩ := commandOf_of_decodeCmd hw
    obtain ⟨t, ht, hsolo, -⟩ := soloChecked_acceptCommand h hcur hk hc c
    exact ⟨t, (issueWord_legal hw hcmd s).trans ht, hsolo⟩

theorem safe_runCommand (c : Command) : Safe (runCommand c s) := by
  obtain ⟨t, ht, hsolo, hcur'⟩ := soloChecked_acceptCommand h hcur hk hc c
  rw [runCommand, ht, andThen_next]
  exact safe_runToEnd 9 hsolo hcur'

end

theorem withPending_actor_some {s : State} {k : Ctrl} (hk : s.actor? = some k) (ws : List (BitVec 64)) :
    (s.withPending ws).actor? = some { k with pending := ws } := by
  rw [State.withPending_actor, hk, Option.map_some]

/-! ## Every turn of the sole checked use -/

theorem safe_fetchCtrl {s : State} (h : s.SoloChecked) (hcur : s.cur = 0) : Safe (fetchCtrl s).result := by
  obtain ⟨k, hk, -⟩ := h.actor hcur
  cases hc : k.cmd with
  | some c =>
    obtain ⟨t, ht, hsolo, -⟩ := soloChecked_microStep h hcur
    exact ⟨t, by simp [fetchCtrl, hk, hc, Fetched.result, ht], hsolo⟩
  | none =>
    cases hw : k.pending with
    | nil => exact ⟨s, by simp [fetchCtrl, hk, hc, hw, Fetched.result], h⟩
    | cons w ws =>
      have hissue := safe_issueWord (soloChecked_withPending h hcur hk hc ws) hcur (withPending_actor_some hk ws) hc w
      simpa [fetchCtrl, hk, hc, hw, Fetched.result] using hissue

/-- A whole-command turn of an idle controller runs its host's next word (R64). -/
theorem fetchRun_word {s : State} {k : Ctrl} {w : BitVec 64} {ws : List (BitVec 64)} {i : Instr} (hk : s.actor? = some k)
    (hc : k.cmd = none) (hw : k.pending = w :: ws) (hd : decodeCmd w = .ok i) :
    fetchRun s = .run i (s.withPending ws) := by
  simp [fetchRun, hk, hc, hw, hd]

theorem safe_fetchRun {s : State} (h : s.SoloChecked) (hcur : s.cur = 0) : Safe (fetchRun s).result := by
  obtain ⟨k, hk, -⟩ := h.actor hcur
  cases hc : k.cmd with
  | some c =>
    have hrun := safe_runToEnd 9 h hcur
    simpa [fetchRun, hk, hc, Fetched.result] using hrun
  | none =>
    cases hw : k.pending with
    | nil => exact ⟨s, by simp [fetchRun, hk, hc, hw, Fetched.result], h⟩
    | cons w ws =>
      have hsolo := soloChecked_withPending h hcur hk hc ws
      have hk' := withPending_actor_some hk ws
      cases hd : decodeCmd w with
      | error e =>
        have hreject := safe_rejectCommand hsolo hcur hk' hc
        simpa [fetchRun, hk, hc, hw, hd, Fetched.result] using hreject
      | ok i =>
        obtain ⟨c, hcmd⟩ := commandOf_of_decodeCmd hd
        have hrun := safe_runCommand hsolo hcur hk' hc c
        rw [← exec_of_commandOf hcmd] at hrun
        rw [fetchRun_word hk hc hw hd]
        exact hrun

/-- A reset leaves the sole controller idle and closed, and the pull latch idle (R44, R230). -/
theorem soloChecked_resetBlock {s : State} (h : s.SoloChecked) : (resetBlock s).SoloChecked := by
  obtain ⟨-, hcheck, ⟨k, hctrls, -, -⟩, hsched⟩ := h
  refine ⟨rfl, hcheck, ⟨Ctrl.reset s.draws 0 k.pending, ?_, Ctrl.sound_reset _ _ _ _, RegFile.reset_seqIdle _⟩, hsched⟩
  rw [resetBlock, hctrls]
  rfl

/-- Of the turns of the sole checked use, each answers a state of it. -/
theorem safe_fetchTurn {a : Turn} {s : State} (h : s.SoloChecked) (ha : a = .ctrl 0 ∨ a = .run 0 ∨ a = .reset) :
    Safe (fetchTurn a s).result := by
  rcases ha with rfl | rfl | rfl
  · exact safe_fetchCtrl (s := { s with cur := 0 }) h rfl
  · exact safe_fetchRun (s := { s with cur := 0 }) h rfl
  · exact ⟨_, rfl, soloChecked_resetBlock h⟩

/-- With an empty schedule the block waits, or the first controller that can move has its turn (log entry 2). -/
theorem step_of_sched_nil {s : State} (hr : s.refused = false) (hs : s.sched = []) :
    (firstReady 0 s.ctrls = none ∧ step s = .next s) ∨
      ∃ c, firstReady 0 s.ctrls = some c ∧ step s = (fetchTurn (.ctrl c) s).result := by
  cases hready : firstReady 0 s.ctrls with
  | none => exact .inl ⟨rfl, by simp [step_eq_result, fetch, hr, hs, hready, Fetched.result]⟩
  | some c => exact .inr ⟨c, rfl, by simp [step_eq_result, fetch, hr, hs, hready]⟩

/-- Settles O52: every turn of the sole checked use answers, and each micro-op brings the pull latch to where the program
has it at its next step. -/
theorem checkedSoleUseIsSafe : Obligations.CheckedSoleUseIsSafe := by
  intro s h
  have ⟨hr, hcheck, hctrl, hsched⟩ := h
  cases hs : s.sched with
  | cons a rest =>
    rw [hs, List.forall_mem_cons] at hsched
    obtain ⟨ha, hrest⟩ := hsched
    rw [step_of_sched hr hs]
    exact safe_fetchTurn (s := { s with sched := rest }) ⟨hr, hcheck, hctrl, hrest⟩ ha
  | nil =>
    obtain ⟨-, hwait⟩ | ⟨c, hready, hturn⟩ := step_of_sched_nil hr hs
    · exact ⟨s, hwait, h⟩
    · obtain ⟨k, hk, -⟩ := hctrl
      obtain rfl : c = 0 := by
        rw [hk, firstReady, firstReady] at hready
        split at hready <;> cases hready
        rfl
      rw [hturn]
      exact safe_fetchTurn h (.inl rfl)

end Sys2Proof.Machine
end

section
/-! Proofs of the statements of 41_mapping_and_raw_access.md about raw register access: READ_REG (O36, R146), WRITE_REG (O37,
R147), and the micro-op step that performs one (O14, R140). -/

namespace Sys2Proof.Machine

/-! ## A raw access that stands alone -/

section
variable {s : State} {k : Ctrl} {i : Nat}

/-- A READ_REG kept off the bus answers its error and changes nothing else (R146, R202). -/
theorem exec_readReg_error {e : Status} (hk : s.actor? = some k) (he : rawError k i = some e) :
    exec (.readReg i) s = .next (endCommand e false s) :=
  congrArg settleError (readReg_error hk he)

/-- A WRITE_REG kept off the bus answers its error and changes nothing else (R147, R202). -/
theorem exec_writeReg_error {e : Status} (hk : s.actor? = some k) (he : rawError k i = some e) (v : Word) :
    exec (.writeReg i v) s = .next (endCommand e false s) :=
  congrArg settleError (writeReg_error hk he)

/-- A READ_REG that reaches the bus is the bus read, and takes the datum into the temporary (R146). -/
theorem exec_readReg_bus (hk : s.actor? = some k) (he : rawError k i = none) :
    exec (.readReg i) s = andThen (busRead i s) fun t => .next (t.modifyActor fun k => k.setT t.rdata) := by
  show settleError (readReg i s) = _
  rw [readReg, withActor_some hk, he]
  cases busRead i s <;> rfl

/-- A WRITE_REG that reaches the bus is the bus write (R147). -/
theorem exec_writeReg_bus (hk : s.actor? = some k) (he : rawError k i = none) (v : Word) :
    exec (.writeReg i v) s = busWrite i v s := by
  show settleError (writeReg i v s) = _
  rw [writeReg, withActor_some hk, he]
  cases busWrite i v s <;> rfl

/-- A command ended by an error is `Ended`, and the rest of the state is as it was. -/
theorem ended_of_error (hk : s.actor? = some k) (e : Status) :
    Ended k (rspWord e false) (endCommand e false s) ∧ Quiet s (endCommand e false s) :=
  ⟨ended_endCommand hk rfl rfl rfl, quiet_endCommand _ _ _⟩

/-- A READ_REG of a readable word takes the bus's datum into the temporary, and leaves the register file alone (R146). -/
theorem exec_readReg_next {t : State} (hk : s.actor? = some k) (he : rawError k i = none) (h : busRead i s = .next t) :
    ∃ u, exec (.readReg i) s = .next u ∧ u.actor? = some { k with t := u.rdata } ∧ u.rf = s.rf ∧ Quiet s u ∧
      u.rdata = t.rdata := by
  refine ⟨t.modifyActor fun k => k.setT t.rdata, by rw [exec_readReg_bus hk he, h, andThen_next], ?_,
    (busRead_rf h : t.rf = s.rf), (quiet_busRead h).trans (quiet_modifyActor _ _), rfl⟩
  rw [State.modifyActor_actor, busRead_actor h, hk]
  rfl

end

/-! ## The words of the window -/

theorem busRead_select {i : Nat} (h : i ≤ 5) (s : State) : busRead i s = .next (readFsel i s) := if_pos h

theorem busRead_level {i : Nat} (h : i = 13 ∨ i = 14) (s : State) : busRead i s = .next (readLev (i - 13) s) := by
  obtain rfl | rfl := h <;> rfl

/-- The words that are only written (R106, R108, R113). -/
theorem busRead_writeOnly {i : Nat} (h : i = 7 ∨ i = 8 ∨ i = 10 ∨ i = 11 ∨ i = 38 ∨ i = 39) (s : State) :
    busRead i s = refuse .readOfWriteOnly s := by
  obtain rfl | rfl | rfl | rfl | rfl | rfl := h <;> rfl

theorem busRead_unlisted {i : Nat} (h : listedWord i = false) (s : State) : busRead i s = refuse .unlistedRegister s := by
  rw [listedWord_eq_false_iff] at h
  simp only [not_or] at h
  simp [busRead, h]

theorem busWrite_select {i : Nat} (h : i ≤ 5) (v : Word) (s : State) : busWrite i v s = .next (writeFsel i v s) :=
  if_pos h

theorem busWrite_setWord {i : Nat} (h : i = 7 ∨ i = 8) (v : Word) (s : State) :
    busWrite i v s = writeLatches (i - 7) v true s := by
  obtain rfl | rfl := h <;> rfl

theorem busWrite_clrWord {i : Nat} (h : i = 10 ∨ i = 11) (v : Word) (s : State) :
    busWrite i v s = writeLatches (i - 10) v false s := by
  obtain rfl | rfl := h <;> rfl

theorem busWrite_level {i : Nat} (h : i = 13 ∨ i = 14) (v : Word) (s : State) :
    busWrite i v s = refuse .writeToReadOnly s := by
  obtain rfl | rfl := h <;> rfl

theorem busWrite_clock {i : Nat} (h : i = 38 ∨ i = 39) (v : Word) (s : State) :
    busWrite i v s = writePudclk (i - 38) v s := by
  obtain rfl | rfl := h <;> rfl

theorem busWrite_unlisted {i : Nat} (h : listedWord i = false) (v : Word) (s : State) :
    busWrite i v s = refuse .unlistedRegister s := by
  rw [listedWord_eq_false_iff] at h
  simp only [not_or] at h
  simp [busWrite, h]

/-- Settles O36: a closed controller or an index out of bounds keeps the read off the bus; else it is the bus read of its
word. -/
theorem readRegResult : Obligations.ReadRegResult := by
  intro s k i hk
  refine ⟨fun hclosed => ?closed, fun ho hi => ?bounds, fun ho hi => ?read, fun ho hi => ?writeOnly,
    fun ho hi hlist => ?unlisted⟩
  case closed =>
    obtain ⟨hended, hquiet⟩ := ended_of_error hk .errNotOpen
    exact ⟨_, exec_readReg_error hk (rawError_closed hclosed i), hended, rfl, rfl, rfl, hquiet⟩
  case bounds =>
    obtain ⟨hended, hquiet⟩ := ended_of_error hk .errBounds
    exact ⟨_, exec_readReg_error hk (rawError_bounds ho hi), hended, rfl, rfl, rfl, hquiet⟩
  case read =>
    have he : rawError k i = none := rawError_none ho (by omega)
    obtain hi | hi | rfl : i ≤ 5 ∨ (i = 13 ∨ i = 14) ∨ i = 37 := by omega
    · obtain ⟨u, hu, hactor, hrf, hquiet, hdata⟩ := exec_readReg_next hk he (busRead_select hi s)
      obtain ⟨_, ht, -, -, hfields⟩ := fselReadDone i s
      cases ht
      exact ⟨u, hu, hactor, hrf, hquiet, fun _ => hdata ▸ hfields, fun h => by omega, fun h => by omega⟩
    · obtain ⟨u, hu, hactor, hrf, hquiet, hdata⟩ := exec_readReg_next hk he (busRead_level hi s)
      obtain ⟨_, ht, -, hlevels⟩ := levReadDone (i - 13) s
      cases ht
      exact ⟨u, hu, hactor, hrf, hquiet, fun h => by omega, fun _ _ => hdata ▸ hlevels, fun h => by omega⟩
    · obtain ⟨u, hu, hactor, hrf, hquiet, hdata⟩ := exec_readReg_next hk he (busRead_pud s)
      exact ⟨u, hu, hactor, hrf, hquiet, fun h => by omega, fun _ h => by omega, fun _ => hdata ▸ low2_pudWord s.rf _⟩
  case writeOnly =>
    rw [exec_readReg_bus hk (rawError_none ho (by omega)), busRead_writeOnly hi]
    rfl
  case unlisted =>
    rw [exec_readReg_bus hk (rawError_none ho hi), busRead_unlisted hlist]
    rfl

/-- Settles O37: a closed controller or an index out of bounds keeps the write off the bus; else it is the bus write of its
word. -/
theorem writeRegResult : Obligations.WriteRegResult := by
  intro s k i v hk
  refine ⟨fun hclosed => ?closed, fun ho => ?opened⟩
  case closed =>
    obtain ⟨hended, hquiet⟩ := ended_of_error hk .errNotOpen
    exact ⟨_, exec_writeReg_error hk (rawError_closed hclosed i) v, hended, rfl, rfl, hquiet⟩
  case opened =>
    have hbus (hi : i < 1024) : exec (.writeReg i v) s = busWrite i v s := exec_writeReg_bus hk (rawError_none ho hi) v
    refine ⟨fun hi => ?bounds, fun hi => ?select, fun hi => ?set, fun hi => ?clr, fun hi => ?level, fun hi => ?pud,
      fun hi => ?clock, fun hi hlist => ?unlisted⟩
    case bounds =>
      obtain ⟨hended, hquiet⟩ := ended_of_error hk .errBounds
      exact ⟨_, exec_writeReg_error hk (rawError_bounds ho hi) v, hended, rfl, rfl, hquiet⟩
    case select => rw [hbus (by omega), busWrite_select hi]; exact fselWriteDone i v s
    case set => rw [hbus (by omega), busWrite_setWord hi]; exact latchWriteDone (i - 7) true v s
    case clr => rw [hbus (by omega), busWrite_clrWord hi]; exact latchWriteDone (i - 10) false v s
    case level => rw [hbus (by omega), busWrite_level hi]; rfl
    case pud => rw [hbus (by omega), hi]; exact pudWriteDone v s
    case clock => rw [hbus (by omega), busWrite_clock hi]; exact pudclkWriteDone (i - 38) v s
    case unlisted => rw [hbus hi, busWrite_unlisted hlist]; rfl

/-! ## A raw access as a micro-op of a program -/

/-- A raw access of an open controller in bounds, as a micro-op of a program, is the same access standing alone. -/
theorem performMicro_of_exec_read {s t : State} {k : Ctrl} {i : Nat} (hk : s.actor? = some k) (ho : k.isOpen = true)
    (hi : i < 1024) (h : exec (.readReg i) s = .next t) : performMicro (.read i) s = .next (t, none) := by
  have he := rawError_none ho hi
  rw [exec_readReg_bus hk he] at h
  obtain ⟨u, hu, ht⟩ := andThen_eq_next h
  cases ht
  exact readReg_next hk he hu

theorem performMicro_of_exec_write {s t : State} {k : Ctrl} {i : Nat} {v : Word} (hk : s.actor? = some k)
    (ho : k.isOpen = true) (hi : i < 1024) (h : exec (.writeReg i v) s = .next t) :
    performMicro (.write i v) s = .next (t, none) := by
  have he := rawError_none ho hi
  rw [exec_writeReg_bus hk he] at h
  exact writeReg_next hk he h

/-- A micro-op without an error is followed by the end of the command at the program's last step, else by the counter's
advance (R140). -/
theorem microStep_of_performMicro {s t : State} {k : Ctrl} {c : Command} {op : MicroOp} (hk : s.actor? = some k)
    (hc : k.cmd = some c) (ho : microOp c k.step k.t = some op) (h : performMicro op s = .next (t, none)) :
    ∃ k', t.actor? = some k' ∧
      microStep s = .next (if k.step + 1 = programLength c then endCommand .ok (responseLevel c k'.t) t
        else t.modifyActor Ctrl.advance) := by
  obtain ⟨k', hk', -⟩ := performMicro_actor hk h
  refine ⟨k', hk', ?_⟩
  rw [microStep_eq hk hc ho, h, andThen_next]
  split
  next hlast => rw [concludeMicro_last hlast t hk']
  next hlast => rw [concludeMicro_advance hlast]

/-- Settles O14: the turn is a micro-op step, whose micro-op is the raw access. -/
theorem microOpStep : Obligations.MicroOpStep := by
  intro s c k cmd rest hr hs hk hc
  have hactor : (s.atTurn c rest).actor? = some k := hk
  refine ⟨fun i t ho hop hi h => ?read, fun i v t ho hop hi h => ?write, fun i v hclosed hop => ?closed⟩ <;>
    rw [step_ctrl_busy hr hs hk hc]
  case read =>
    obtain ⟨k', hk', hmicro⟩ := microStep_of_performMicro hactor hc hop (performMicro_of_exec_read hactor ho hi h)
    rw [hmicro, hk']
  case write =>
    obtain ⟨k', hk', hmicro⟩ := microStep_of_performMicro hactor hc hop (performMicro_of_exec_write hactor ho hi h)
    rw [hmicro, hk']
  case closed =>
    have he := rawError_closed hclosed i
    obtain hop | hop := hop
    · exact microStep_error hactor hc hop (readReg_error hactor he)
    · exact microStep_error hactor hc hop (writeReg_error hactor he)

end Sys2Proof.Machine
end

section
/-! Proofs of the statements of 41_mapping_and_raw_access.md about the issue of commands: the step that runs a whole command
(O10, R64), the issue step (O13, R140, R205), the programs (O19, R149), and a word for a busy controller (O24, R216). -/

namespace Sys2Proof.Machine

/-- Settles O10: the turn fetches the word's command, and the step runs it. -/
theorem stepRunsDecodedCommand : Obligations.StepRunsDecodedCommand := by
  intro s c k w ws rest i hr hs hk hc hw hd
  rw [step_run_turn hr hs, fetchRun_word (s := s.atTurn c rest) hk hc hw hd]
  rfl

/-- A word the decoder gives no instruction for is rejected with a reason. -/
theorem exists_decodeCmd_error {w : BitVec 64} (h : ∀ i, decodeCmd w ≠ .ok i) : ∃ e, decodeCmd w = .error e := by
  cases hw : decodeCmd w with
  | error e => exact ⟨e, rfl⟩
  | ok i => exact absurd hw (h i)

/-- Settles O13: taking the word and accepting or rejecting it are two changes of the acting controller, which are one. -/
theorem issueStep : Obligations.IssueStep := by
  intro s c k w ws rest hr hs hk hc hw
  have hactor : ((s.atTurn c rest).withPending ws).actor? = some { k with pending := ws } :=
    withPending_actor_some (s := s.atTurn c rest) hk ws
  refine ⟨fun i cmd hd hcmd => ?legal, fun hd => ?illegal⟩ <;> rw [step_ctrl_word hr hs hk hc hw]
  case legal =>
    rw [issueWord_legal hd hcmd, acceptCommand_idle hactor hc, State.withPending, State.modifyActor_modifyActor]
    rfl
  case illegal =>
    obtain ⟨e, he⟩ := exists_decodeCmd_error hd
    rw [issueWord_illegal he, rejectCommand_idle hactor hc, State.withPending, State.modifyActor_modifyActor]
    rfl

/-- The direction code of R21 as a word is the code extended with zeros (R180). -/
theorem dirWord_eq_zeroExtend (d : PinDirection) : dirWord d = (dirCode d).zeroExtend 32 := by
  cases d <;> rfl

/-- Settles O19: each program step by step; the first seven steps of SETUP are those of SET_PULL. -/
theorem microOpPrograms : Obligations.MicroOpPrograms := by
  intro pin d m l t
  refine ⟨⟨rfl, rfl⟩, ⟨rfl, rfl⟩, fun n hn => ?setPull, rfl, fun n hn => ?setup, ⟨rfl, ?direction, rfl⟩,
    ⟨rfl, ?output, rfl⟩, ⟨rfl, rfl, rfl⟩⟩
  case setPull =>
    match n with
    | 0 | 1 | 2 | 3 | 4 | 5 | 6 => rfl
  case setup => exact microOp_setup_eq_setPull pin d m (Nat.le_of_lt_succ hn)
  case direction =>
    rw [← dirWord_eq_zeroExtend]
    rfl
  case output => cases l <;> rfl

/-- A controller with a command in flight accepts no other (R140, R216; log entry 12). -/
theorem acceptCommand_busy {s : State} {k : Ctrl} (hk : s.actor? = some k) (hc : k.cmd ≠ none) (c : Command) :
    acceptCommand c s = .fault .commandPortBusy := by
  simp [acceptCommand, withActor_some hk, Option.isSome_iff_ne_none, hc]

/-- Settles O24: a command begins with its issue step, which a busy controller has not. -/
theorem busyPortFaults : Obligations.BusyPortFaults := by
  intro s k i hk hc hi
  obtain ⟨c, hcmd⟩ := Option.isSome_iff_exists.mp hi
  rw [exec_of_commandOf hcmd, runCommand, acceptCommand_busy hk hc, andThen_fault]

end Sys2Proof.Machine
end

section
/-! Proofs of the statements of 41_mapping_and_raw_access.md about commands that end at their first step: OPEN (O20, R142),
CLOSE (O21, R143), and the errors of ENTRY (O23, R141); and the rule of ownership (O22, R144). -/

namespace Sys2Proof.Machine

/-! ## Commands that end at their first step -/

/-- Only INPUT answers a level, and its program has two steps (R89, R182). -/
theorem responseLevel_of_one_step {c : Command} (h : programLength c = 1) (t : Word) : responseLevel c t = false := by
  cases c <;> cases h <;> rfl

theorem accepted_actor {s : State} {k : Ctrl} (hk : s.actor? = some k) (c : Command) :
    (s.modifyActor fun k => k.accept c).actor? = some (k.accept c) := by
  rw [State.modifyActor_actor, hk, Option.map_some]

/-- A command that is OPEN or CLOSE, or whose first micro-op raises an error, ends at its first step (R140, R202). -/
theorem runCommand_one_step {c : Command} {s : State} {k : Ctrl} {op : MicroOp} {r : State × Option Status}
    (hidle : s.IdleActor k) (hop : microOp c 0 k.t = some op)
    (hr : performMicro op (s.modifyActor fun k => k.accept c) = .next r)
    (hend : programLength c = 1 ∨ r.2.isSome = true) :
    runCommand c s = .next (endCommand (r.2.getD .ok) false r.1) := by
  obtain ⟨hk, hc⟩ := hidle
  have haccepted := accepted_actor hk c
  obtain ⟨k', hk', -⟩ := performMicro_actor haccepted hr
  have hconclude : concludeMicro c 0 r.2 r.1 = endCommand (r.2.getD .ok) false r.1 := by
    cases he : r.2 with
    | some st => exact concludeMicro_error c 0 st r.1
    | none =>
      have hone : programLength c = 1 := hend.resolve_right (by simp [he])
      rw [concludeMicro_last hone.symm r.1 hk', responseLevel_of_one_step hone, Option.getD_none]
  rw [runCommand_idle hk hc, runToEnd_succ haccepted rfl, microStep_eq haccepted rfl hop, hr, andThen_next, andThen_next]
  show runToEnd 8 (concludeMicro c 0 r.2 r.1) = _
  rw [hconclude, runToEnd_ended hk']

/-! ## OPEN and CLOSE -/

section
variable {s : State} {k : Ctrl} (hk : s.actor? = some k)
include hk

theorem openWindow_open (ho : k.isOpen = true) : openWindow s = .next (s, some .errAlreadyOpen) := by
  rw [openWindow, withActor_some hk, if_pos ho]

theorem openWindow_closed (ho : k.isOpen = false) :
    openWindow s = .next
      (s.dropOpen.modifyActor fun k => k.setOpen (decide (s.nextOpen = .ok)), openError s.nextOpen) := by
  rw [openWindow, withActor_some hk, ho, if_neg Bool.false_ne_true]

theorem closeWindow_open (ho : k.isOpen = true) :
    closeWindow s = .next (s.modifyActor fun k => k.setOpen false, none) := by
  rw [closeWindow, withActor_some hk, if_pos ho]

theorem closeWindow_closed (ho : k.isOpen = false) : closeWindow s = .next (s, some .errNotOpen) := by
  rw [closeWindow, withActor_some hk, ho, if_neg Bool.false_ne_true]

end

/-- OPEN is its one micro-op (R142, R149). -/
theorem exec_openCmd {s u : State} {k : Ctrl} {e : Option Status} (hidle : s.IdleActor k)
    (h : openWindow (s.modifyActor fun k => k.accept .openCmd) = .next (u, e)) :
    exec .openCmd s = .next (endCommand (e.getD .ok) false u) :=
  runCommand_one_step (c := .openCmd) hidle rfl h (.inl rfl)

/-- CLOSE is its one micro-op (R143, R149). -/
theorem exec_closeCmd {s u : State} {k : Ctrl} {e : Option Status} (hidle : s.IdleActor k)
    (h : closeWindow (s.modifyActor fun k => k.accept .closeCmd) = .next (u, e)) :
    exec .closeCmd s = .next (endCommand (e.getD .ok) false u) :=
  runCommand_one_step (c := .closeCmd) hidle rfl h (.inl rfl)

/-- A command ended right after it was accepted left its controller as it was (R202). -/
theorem ended_accepted {s : State} {k : Ctrl} (hk : s.actor? = some k) (c : Command) (st : Status) :
    Ended k (rspWord st false) (endCommand st false (s.modifyActor fun k => k.accept c)) :=
  ended_endCommand (accepted_actor hk c) rfl rfl rfl

/-- Settles O20: an open controller keeps its mapping; on a closed one the draw decides. -/
theorem openResult : Obligations.OpenResult := by
  intro s k hidle
  have haccepted := accepted_actor hidle.1 .openCmd
  refine ⟨by decide, fun ho => ?opened, fun ho => ?closed⟩
  case opened =>
    have h := exec_openCmd hidle (openWindow_open haccepted ho)
    exact ⟨_, h, ended_accepted hidle.1 .openCmd .errAlreadyOpen, rfl, quiet_runCommand h, rfl, rfl, rfl⟩
  case closed =>
    have h := exec_openCmd hidle (openWindow_closed haccepted ho)
    have hactor (b : Bool) : ((s.modifyActor fun k => k.accept .openCmd).dropOpen.modifyActor fun k =>
        k.setOpen b).actor? = some ((k.accept .openCmd).setOpen b) := by
      rw [State.modifyActor_actor, State.dropOpen_actor, haccepted, Option.map_some]
    rw [show (s.modifyActor fun k => k.accept .openCmd).nextOpen = s.nextOpen from rfl] at h
    refine ⟨_, h, fun hout => ?ok, fun hout => ?openFail, fun hout => ?mapFail, rfl, quiet_runCommand h, rfl, rfl, rfl⟩
    all_goals rw [hout]
    case ok => exact ended_endCommand (hactor true) rfl rfl (by decide)
    case openFail => exact ended_endCommand (hactor false) ho.symm rfl (by decide)
    case mapFail => exact ended_endCommand (hactor false) ho.symm rfl (by decide)

/-- Settles O21: an open controller loses its mapping, and a closed one answers an error. -/
theorem closeResult : Obligations.CloseResult := by
  intro s k hidle
  have haccepted := accepted_actor hidle.1 .closeCmd
  refine ⟨by decide, ?_⟩
  cases ho : k.isOpen with
  | true =>
    have h := exec_closeCmd hidle (closeWindow_open haccepted ho)
    have hactor : ((s.modifyActor fun k => k.accept .closeCmd).modifyActor fun k => k.setOpen false).actor? =
        some ((k.accept .closeCmd).setOpen false) := by
      rw [State.modifyActor_actor, haccepted, Option.map_some]
    exact ⟨_, h, fun _ => ended_endCommand hactor rfl rfl (by decide), nofun, rfl, quiet_runCommand h, rfl, rfl, rfl⟩
  | false =>
    have h := exec_closeCmd hidle (closeWindow_closed haccepted ho)
    exact ⟨_, h, nofun, fun _ => ended_accepted hidle.1 .closeCmd .errNotOpen, rfl, quiet_runCommand h, rfl, rfl, rfl⟩

/-! ## Errors of ENTRY -/

/-- ENTRY checks the mapping before the pin (R141, R204). -/
theorem entryError_closed {k : Ctrl} (h : k.isOpen = false) (pc : PinCheck) (pin : BitVec 32) :
    entryError pc k pin = some .errNotOpen := if_pos h

theorem entryError_invalidPin {k : Ctrl} {pin : BitVec 32} (h : k.isOpen = true) (hp : 54 ≤ pin.toNat) :
    entryError .checked k pin = some .errInvalidPin := by
  simp [entryError, h, hp]

/-- The commands that begin with ENTRY of a pin (R141, R149). -/
def Command.HasEntry (c : Command) (pin : BitVec 32) : Prop := ∀ t, microOp c 0 t = some (.entry pin)

/-- A command whose ENTRY raises an error ends with it, and nothing else changes (R141, R202). -/
theorem runCommand_entryError {c : Command} {s : State} {k : Ctrl} {pin : BitVec 32} {st : Status}
    (hidle : s.IdleActor k) (hop : c.HasEntry pin) (he : entryError s.pinCheck k pin = some st) :
    ∃ t, runCommand c s = .next t ∧ Ended k (rspWord st false) t ∧ t.rf = s.rf ∧ Quiet s t ∧ t.rdata = s.rdata ∧
      t.opens = s.opens ∧ t.levels = s.levels := by
  have hentry : performMicro (.entry pin) (s.modifyActor fun k => k.accept c) =
      .next (s.modifyActor fun k => k.accept c, some st) :=
    (withActor_some (accepted_actor hidle.1 c) _).trans (congrArg (fun e => Host.Outcome.next (_, e)) he)
  have h := runCommand_one_step hidle (hop k.t) hentry (.inr rfl)
  exact ⟨_, h, ended_accepted hidle.1 c st, rfl, quiet_runCommand h, rfl, rfl, rfl⟩

/-- SET_PULL, SETUP, OUTPUT and INPUT are commands that begin with ENTRY of their pin (R141). -/
theorem hasEntry_of_pin_command {pin : BitVec 32} {d : PinDirection} {m : PullMode} {l : PinLevel} {i : Instr}
    (h : i ∈ [Instr.setPull pin m, .setup pin d m, .output pin l, .input pin]) :
    ∃ c, commandOf i = some c ∧ c.HasEntry pin := by
  simp only [List.mem_cons, List.not_mem_nil, or_false] at h
  obtain rfl | rfl | rfl | rfl := h <;> exact ⟨_, rfl, fun _ => rfl⟩

/-- Settles O23: the four commands begin with ENTRY, whose error ends them. -/
theorem entryErrors : Obligations.EntryErrors := by
  intro s k pin d m l hidle i hi
  obtain ⟨c, hcmd, hop⟩ := hasEntry_of_pin_command hi
  rw [exec_of_commandOf hcmd]
  refine ⟨fun ho => ?closed, fun ho hcheck hp => ?invalidPin⟩
  case closed => exact runCommand_entryError hidle hop (entryError_closed ho _ pin)
  case invalidPin => exact runCommand_entryError hidle hop (hcheck ▸ entryError_invalidPin ho hp)

/-! ## Ownership -/

/-- Which controllers are open. -/
def State.openness (s : State) : List Bool := s.ctrls.map Ctrl.isOpen

theorem openness_modify {s t : State} {f : Ctrl → Ctrl} (h : t.ctrls = s.ctrls.modify s.cur f)
    (hf : ∀ k, (f k).isOpen = k.isOpen) : t.openness = s.openness := by
  apply List.ext_getElem?
  intro c
  simp only [State.openness, h, List.getElem?_map, List.getElem?_modify]
  cases s.ctrls[c]? with
  | none => rfl
  | some k =>
    simp only [Option.map_eq_map, Option.map_some]
    split
    · rw [hf k]
    · rfl

theorem openness_performMicro {op : MicroOp} {s : State} {r : State × Option Status} (hop : ¬ op.IsWindow)
    (h : performMicro op s = .next r) : r.1.openness = s.openness := by
  obtain ⟨f, hctrls, -, hopen⟩ := performMicro_ctrls h
  exact openness_modify hctrls (hopen hop)

theorem openness_endCommand (st : Status) (b : Bool) (s : State) : (endCommand st b s).openness = s.openness :=
  openness_modify (endCommand_ctrls st b s) fun _ => rfl

theorem openness_concludeMicro (c : Command) (n : Nat) (e : Option Status) (s : State) :
    (concludeMicro c n e s).openness = s.openness := by
  obtain ⟨st, b, h⟩ | ⟨-, -, h⟩ := concludeMicro_cases c n e s <;> rw [h]
  · exact openness_endCommand st b s
  · exact openness_modify (s.modifyActor_ctrls _) fun _ => rfl

/-- After a micro-op step the acting controller is idle or has the command it had. -/
theorem microStep_command {s t : State} {k k' : Ctrl} (hk : s.actor? = some k) (h : microStep s = .next t)
    (hk' : t.actor? = some k') : k'.cmd = none ∨ k'.cmd = k.cmd := by
  obtain ⟨k₀, hk₀, ⟨-, rfl⟩ | ⟨c, op, r, -, -, hr, rfl⟩⟩ := microStep_cases h <;> cases hk.symm.trans hk₀
  · cases hk.symm.trans hk'
    exact .inr rfl
  obtain ⟨k₁, hk₁, hsame, -⟩ := performMicro_actor hk hr
  obtain ⟨st, b, e⟩ | ⟨-, -, e⟩ := concludeMicro_cases c k.step r.2 r.1 <;> rw [e] at hk'
  · rw [endCommand_actor, hk₁, Option.map_some] at hk'
    cases hk'
    exact .inl rfl
  · rw [State.modifyActor_actor, hk₁, Option.map_some] at hk'
    cases hk'
    exact .inr hsame.cmd

/-- The acting controller is idle or runs `c`, and which controllers are open is `l`. -/
structure RunsWith (c : Command) (l : List Bool) (s : State) : Prop where
  openness : s.openness = l
  command : ∀ k, s.actor? = some k → k.cmd = none ∨ k.cmd = some c

/-- A micro-op step of a command other than OPEN and CLOSE opens and closes no controller (R144). -/
theorem runsWith_microStep {c : Command} {l : List Bool} (hlen : programLength c ≠ 1) {s t : State}
    (hs : RunsWith c l s) (h : microStep s = .next t) : RunsWith c l t := by
  obtain ⟨k, hk, hcase⟩ := microStep_cases h
  refine ⟨?openness, fun k' hk' => ?command⟩
  case openness =>
    obtain ⟨-, rfl⟩ | ⟨c', op, r, hc, ho, hr, rfl⟩ := hcase
    · exact hs.openness
    obtain rfl : c' = c := by simpa [hc] using hs.command k hk
    have hop : ¬ op.IsWindow := fun hw => hlen (programLength_of_window ho hw)
    exact (openness_concludeMicro _ _ _ _).trans ((openness_performMicro hop hr).trans hs.openness)
  case command =>
    obtain hidle | hcmd := microStep_command hk h hk'
    · exact .inl hidle
    · rw [hcmd]
      exact hs.command k hk

/-- A command other than OPEN and CLOSE opens and closes no controller (R144). -/
theorem openness_runCommand {c : Command} (hlen : programLength c ≠ 1) {s t : State} (h : runCommand c s = .next t) :
    t.openness = s.openness := by
  obtain ⟨u, haccept, hrun⟩ := andThen_eq_next h
  obtain ⟨k, hk, -, rfl⟩ := acceptCommand_cases haccept
  have hstart : RunsWith c s.openness (s.modifyActor fun k => k.accept c) := by
    refine ⟨openness_modify (s.modifyActor_ctrls _) fun _ => rfl, fun k' hk' => ?_⟩
    rw [accepted_actor hk] at hk'
    cases hk'
    exact .inr rfl
  exact (runToEnd_keeps (fun _ _ => runsWith_microStep hlen) 9 _ _ hstart hrun).openness

theorem openness_settleError {op : MicroOp} {s t : State} (hop : ¬ op.IsWindow)
    (h : settleError (performMicro op s) = .next t) : t.openness = s.openness := by
  obtain ⟨⟨u, e⟩, hr, hsettle⟩ := andThen_eq_next h
  cases hsettle
  cases e with
  | none => exact openness_performMicro hop hr
  | some st => exact (openness_endCommand st false u).trans (openness_performMicro hop hr)

/-- An instruction other than OPEN and CLOSE opens and closes no controller (R144): the other commands have a program of
more than one step, a raw access leaves its controller's mapping, and a bus transaction leaves every controller. -/
theorem openness_exec {i : Instr} {s t : State} (hopen : i ≠ .openCmd) (hclose : i ≠ .closeCmd) (h : exec i s = .next t) :
    t.openness = s.openness := by
  cases i with
  | openCmd => exact absurd rfl hopen
  | closeCmd => exact absurd rfl hclose
  | setPull pin mode => exact openness_runCommand (c := .setPull pin mode) (Nat.succ_succ_ne_one 5) h
  | setup pin dir mode => exact openness_runCommand (c := .setup pin dir mode) (Nat.succ_succ_ne_one 7) h
  | output pin level => exact openness_runCommand (c := .output pin level) (Nat.succ_succ_ne_one 0) h
  | input pin => exact openness_runCommand (c := .input pin) (Nat.succ_succ_ne_one 0) h
  | readReg n => exact openness_settleError (op := .read n) id h
  | writeReg n v => exact openness_settleError (op := .write n v) id h
  | rdSet0 | rdSet1 | rdClr0 | rdClr1 | wrLev0 v | wrLev1 v | rdPudclk0 | rdPudclk1 | rdUnlisted n | wrUnlisted n v =>
    cases h
  | rdFsel0 | rdFsel1 | rdFsel2 | rdFsel3 | rdFsel4 | rdFsel5 | rdLev0 | rdLev1 | rdPud | wrFsel0 v | wrFsel1 v
  | wrFsel2 v | wrFsel3 v | wrFsel4 v | wrFsel5 v | wrPud v =>
    cases h
    rfl
  | wrSet0 v | wrSet1 v | wrClr0 v | wrClr1 v =>
    obtain ⟨-, -, rfl⟩ := writeLatches_cases h
    rfl
  | wrPudclk0 v =>
    obtain ⟨-, rfl⟩ := writePudclk_cases (n := 0) h
    rfl
  | wrPudclk1 v =>
    obtain ⟨-, rfl⟩ := writePudclk_cases (n := 1) h
    rfl

/-- A command of one step, OPEN or CLOSE, leaves the register file alone, whatever it answers (R144). -/
theorem rf_runCommand_of_one_step {c : Command} {s t : State} (hlen : programLength c = 1)
    (h : runCommand c s = .next t) : t.rf = s.rf := by
  obtain ⟨u, haccept, -⟩ := andThen_eq_next h
  obtain ⟨k, hk, hc, -⟩ := acceptCommand_cases haccept
  obtain ⟨op, r, hop, hr, hrf⟩ := microOp_zero_answers (accepted_actor hk c) c k.t
  cases h.symm.trans (runCommand_one_step ⟨hk, hc⟩ hop hr (.inl hlen))
  exact hrf

/-- Settles O22: the one step of OPEN and of CLOSE touches no register, and no other instruction has a micro-op that opens
or closes. -/
theorem ownershipRule : Obligations.OwnershipRule := by
  intro i s t h
  refine ⟨?registers, fun hopen hclose c => ?mappings⟩
  case registers =>
    rintro (rfl | rfl)
    · exact rf_runCommand_of_one_step (c := .openCmd) rfl h
    · exact rf_runCommand_of_one_step (c := .closeCmd) rfl h
  case mappings =>
    rw [← List.getElem?_map, ← List.getElem?_map]
    exact congrArg (·[c]?) (openness_exec hopen hclose h)

end Sys2Proof.Machine
end

section
/-! Proofs of the statements of 41_mapping_and_raw_access.md about unchecked pins: SET_PULL and SETUP of a pin whose clock
register is refused (O26, R148, R167), and OUTPUT of a pin whose set register is another (O32, R148, R234). -/

namespace Sys2Proof.Machine

/-! ## The first steps of a program -/

/-- With pins unchecked, ENTRY of an open controller passes whatever the pin (R141). -/
theorem entryError_unchecked {k : Ctrl} (ho : k.isOpen = true) (pin : BitVec 32) : entryError .unchecked k pin = none :=
  entryError_none ho nofun

/-- The state in which the acting controller has accepted a command and passed ENTRY. -/
def State.entered (s : State) (c : Command) : State := s.modifyActor fun k => (k.accept c).advance

theorem State.entered_actor {s : State} {k : Ctrl} (hk : s.actor? = some k) (c : Command) :
    (s.entered c).actor? = some (k.accept c).advance := by
  rw [entered, State.modifyActor_actor, hk, Option.map_some]

/-- A command that begins with ENTRY, which passes, goes on from its second step (R141). -/
theorem runCommand_entered {c : Command} {s : State} {k : Ctrl} {pin : BitVec 32} (hidle : s.IdleActor k)
    (hop : c.HasEntry pin) (hlen : 1 ≠ programLength c) (he : entryError s.pinCheck k pin = none) :
    runCommand c s = runToEnd 8 (s.entered c) := by
  obtain ⟨hk, hc⟩ := hidle
  have haccepted := accepted_actor hk c
  rw [runCommand_idle hk hc, runToEnd_succ haccepted rfl, microStep_entry haccepted rfl (hop _) hlen he, andThen_next,
    State.modifyActor_modifyActor]
  rfl

/-! ## SET_PULL and SETUP up to the strobe -/

/-- The commands whose first seven steps are those of SET_PULL (R165, R180). -/
structure Command.Pulls (c : Command) (pin : BitVec 32) (m : PullMode) : Prop where
  length : 7 ≤ programLength c
  microOp : ∀ n t, n ≤ 6 → microOp c n t = setPullOp pin m n t

theorem pulls_of_pull_command {pin : BitVec 32} {d : PinDirection} {m : PullMode} {i : Instr}
    (h : i ∈ [Instr.setPull pin m, .setup pin d m]) : ∃ c, commandOf i = some c ∧ c.Pulls pin m := by
  simp only [List.mem_cons, List.not_mem_nil, or_false] at h
  obtain rfl | rfl := h
  · exact ⟨_, rfl, Nat.le_refl 7, fun _ _ _ => rfl⟩
  · exact ⟨_, rfl, Nat.le_add_right 7 2, fun n t hn => microOp_setup_eq_setPull pin d m hn⟩

/-- After three steps of SET_PULL or SETUP the mode is staged and no clock was written (R165), whatever the pin. -/
theorem runCommand_staged {c : Command} {s : State} {k : Ctrl} {pin : BitVec 32} {m : PullMode} (hidle : s.IdleActor k)
    (ho : k.isOpen = true) (hc : c.Pulls pin m) (he : entryError s.pinCheck k pin = none) :
    ∃ u k', runCommand c s = runToEnd 6 u ∧ u.actor? = some k' ∧ k'.cmd = some c ∧ k'.step = 3 ∧ k'.isOpen = true ∧
      u.rf.pud = pullCode m ∧ u.rf.clk = s.rf.clk := by
  obtain ⟨hlen, hops⟩ := hc
  have hlast (n : Nat) (hn : n < 7) : n ≠ programLength c := Nat.ne_of_lt (Nat.lt_of_lt_of_le hn hlen)
  have hraw {k' : Ctrl} (h : k'.isOpen = true) : rawError k' pudIndex = none := rawError_none h (by decide)
  have hk₁ := State.entered_actor hidle.1 c
  rw [runCommand_entered hidle (fun t => hops 0 t (Nat.zero_le 6)) (hlast 1 (by decide)) he]
  generalize hs₁ : s.entered c = s₁ at hk₁ ⊢
  rw [runToEnd_succ hk₁ rfl, microStep_read hk₁ rfl (hops 1 _ (by decide)) (hlast 2 (by decide)) (hraw ho)
    (busRead_pud s₁), andThen_next]
  generalize hs₂ : State.modifyActor _ _ = s₂
  have hk₂ : s₂.actor? = some ((k.accept c).advance.setT (readPud s₁).rdata).advance := by
    rw [← hs₂, State.modifyActor_actor, busRead_actor (busRead_pud s₁), hk₁, Option.map_some]
  rw [runToEnd_succ hk₂ rfl, microStep_write hk₂ rfl (hops 2 _ (by decide)) (hlast 3 (by decide)) (hraw ho)
    (busWrite_pud _ s₂), andThen_next]
  refine ⟨_, ((k.accept c).advance.setT (readPud s₁).rdata).advance.advance, rfl, ?actor, rfl, rfl, ho, low2_stage _ m, ?clk⟩
  case actor => rw [State.modifyActor_actor, State.withRf_actor, hk₂, Option.map_some]
  case clk => rw [← hs₂, ← hs₁]; rfl

/-- A WRITE_REG step whose bus write is refused is refused (R14). -/
theorem microStep_write_refused {s : State} {k : Ctrl} {c : Command} {i : Nat} {v : Word} {r : Refusal}
    (hk : s.actor? = some k) (hc : k.cmd = some c) (hop : microOp c k.step k.t = some (.write i v))
    (he : rawError k i = none) (h : busWrite i v s = .refused r) : microStep s = .refused r := by
  rw [microStep_eq hk hc hop, performMicro, writeReg, withActor_some hk, he, h]
  rfl

/-! ## The clock register of a pin beyond the valid ones -/

/-- The strobe of pins 54 to 63 is a reserved bit (R148). -/
theorem reservedBank1_onehot_ne_zero {p : Nat} (hlo : 54 ≤ p) (hhi : p < 64) : reservedBank1 (onehot p) ≠ 0 := by
  intro h
  have hbit : (reservedBank1 (onehot p)).getLsbD (p - 54) = true := by
    have hlt : p - 54 < 10 := by omega
    have hpin : 22 + (p - 54) = p % 32 := by omega
    simp [reservedBank1, getLsbD_onehot, hlt, hpin]
  simp [h] at hbit

theorem busWrite_strobe_reserved {p : Nat} (hlo : 54 ≤ p) (hhi : p < 64) (s : State) :
    busWrite (pudclkIndex p) (onehot p) s = refuse .reservedBitWrite s := by
  have hindex : pudclkIndex p = 39 := congrArg (38 + ·) (bank_of_ge (by omega) hhi)
  rw [hindex, busWrite_clock (.inr rfl)]
  exact if_pos ⟨rfl, reservedBank1_onehot_ne_zero hlo hhi⟩

/-- From pin 64 on there is no clock register (R148). -/
theorem busWrite_strobe_unlisted {p : Nat} (hlo : 64 ≤ p) (v : Word) (s : State) :
    busWrite (pudclkIndex p) v s = refuse .unlistedRegister s := by
  refine busWrite_unlisted (listedWord_eq_false_iff.mpr ?_) v s
  rw [pudclkIndex, bank]
  omega

/-- Settles O26: three steps stage the mode, and the strobe at the fourth is refused. -/
theorem pullSequenceRefusedBeyondPins : Obligations.PullSequenceRefusedBeyondPins := by
  intro s k pin d m hidle ho hcheck hlo hhi i hi
  obtain ⟨c, hcmd, hpulls⟩ := pulls_of_pull_command hi
  obtain ⟨u, k', hrun, hk', hc', hstep, ho', hpud, hclk⟩ :=
    runCommand_staged hidle ho hpulls (hcheck ▸ entryError_unchecked ho pin)
  have hrefused {r : Refusal} (h : busWrite (pudclkIndex pin.toNat) (onehot pin.toNat) u = .refused r) :
      exec i s = .refused r := by
    have hindex : pudclkIndex pin.toNat < 1024 := by rw [pudclkIndex, bank]; omega
    have hop : microOp c k'.step k'.t = some (.write (pudclkIndex pin.toNat) (onehot pin.toNat)) := by
      rw [hstep, hpulls.microOp 3 _ (by decide)]
      rfl
    rw [exec_of_commandOf hcmd, hrun, runToEnd_succ hk' hc',
      microStep_write_refused hk' hc' hop (rawError_none ho' hindex) h, andThen_refused]
  refine ⟨u.markRefused, rfl, hpud, hclk, ?step, fun hp => ?reserved, fun hp => ?unlisted⟩
  case step => rw [State.markRefused_actor, hk', Option.map_some, hstep]
  case reserved => exact hrefused (busWrite_strobe_reserved hlo hp u)
  case unlisted => exact hrefused (busWrite_strobe_unlisted hp _ u)

/-! ## OUTPUT of an unchecked pin -/

/-- Where an OUTPUT writes (R181). -/
def outputIndex (pin : BitVec 32) (l : PinLevel) : Nat :=
  match l with
  | .high => setIndex pin.toNat
  | .low => clrIndex pin.toNat

theorem microOp_output_one (pin : BitVec 32) (l : PinLevel) (t : Word) :
    microOp (.output pin l) 1 t = some (.write (outputIndex pin l) (onehot pin.toNat)) := by
  cases l <;> rfl

/-- An OUTPUT that passes ENTRY, and whose one bus write answers, ends with OK and what that write made of the register
file (R181). -/
theorem exec_output_of_busWrite {s u : State} {k : Ctrl} {pin : BitVec 32} {l : PinLevel} (hidle : s.IdleActor k)
    (ho : k.isOpen = true) (he : entryError s.pinCheck k pin = none) (hi : outputIndex pin l < 1024)
    (h : busWrite (outputIndex pin l) (onehot pin.toNat) s = .next u) :
    ∃ t, exec (.output pin l) s = .next t ∧ Ended k 0x0#32 t ∧ t.rf = u.rf := by
  have hk := State.entered_actor hidle.1 (.output pin l)
  have hk' := State.entered_actor ((busWrite_actor h).trans hidle.1) (.output pin l)
  have hbus : busWrite (outputIndex pin l) (onehot pin.toNat) (s.entered (.output pin l)) =
      .next (u.entered (.output pin l)) := busWrite_modifyActor _ h
  refine ⟨endCommand .ok false (u.entered (.output pin l)), ?_, ended_endCommand hk' rfl rfl (by decide), rfl⟩
  rw [exec_of_commandOf (c := .output pin l) rfl,
    runCommand_entered (c := .output pin l) hidle (fun _ => rfl) (Nat.succ_succ_ne_one 0).symm he, runToEnd_succ hk rfl,
    microStep_write_last hk rfl (microOp_output_one pin l _) rfl (rawError_none ho hi) hbus, andThen_next]
  exact runToEnd_ended hk' .ok false

/-- A write of SETn or CLRn of a one-hot word in bank 0 answers, and gives the bit's latch its value (R105, R107). -/
theorem writeLatches_onehot_bank0 (p : Nat) (b : Bool) (s : State) :
    writeLatches 0 (onehot p) b s = .next (s.withRf (s.rf.writeLatches 0 (onehot p) b)) := by
  simp [writeLatches, onehot_ne_zero]

/-- Settles O32: the set register of pin 96 is CLR0, that of pin 960 is PUD, and that of pin 992 is PUDCLK0; in each the
written word is 1. -/
theorem uncheckedOutputAliases : Obligations.UncheckedOutputAliases := by
  intro s k hidle ho hcheck
  have he (pin : BitVec 32) : entryError s.pinCheck k pin = none := hcheck ▸ entryError_unchecked ho pin
  refine ⟨?clr, ?pud, ?clock⟩
  case clr =>
    have hbus : busWrite (outputIndex 96 .high) (onehot 96) s = _ := writeLatches_onehot_bank0 96 false s
    obtain ⟨t, ht, hended, hrf⟩ := exec_output_of_busWrite hidle ho (he 96) (by decide) hbus
    refine ⟨t, ht, hended, ?_⟩
    rw [hrf]
    exact latch_of_writeLatches (p := 0) (writeLatches_onehot_bank0 96 false s) rfl (by decide)
  case pud =>
    have hbus : busWrite (outputIndex 960 .high) (onehot 960) s = _ := busWrite_pud (onehot 960) s
    obtain ⟨t, ht, hended, hrf⟩ := exec_output_of_busWrite hidle ho (he 960) (by decide) hbus
    have hstaged : low2 (onehot 960) = 1 := by decide
    refine ⟨t, ht, hended, by rw [hrf]; exact hstaged, fun p hclk => ?_⟩
    rw [hrf, State.withRf_rf, RegFile.writePud_pull, pinTable_pin, hstaged, if_pos ⟨by decide, hclk⟩]
  case clock =>
    have hbus : busWrite (outputIndex 992 .high) (onehot 992) s = .next (s.withRf (s.rf.writePudclk 0 (onehot 992))) :=
      (busWrite_clock (.inl rfl) _ s).trans (if_neg fun h => Nat.zero_ne_one h.1)
    obtain ⟨t, ht, hended, hrf⟩ := exec_output_of_busWrite hidle ho (he 992) (by decide) hbus
    refine ⟨t, ht, hended, ?_⟩
    rw [hrf, State.withRf_rf, RegFile.writePudclk_clk, pinTable_get]
    exact (if_pos rfl).trans (by decide)

end Sys2Proof.Machine
end

section
/-! Proofs of the statements of 42_pull_sequencer.md: where SET_PULL leaves the pull latch (O27, R165, R166), and where
SET_PULL and SETUP of a pin whose clock register is out of bounds leave it (O25, R167, R203). -/

namespace Sys2Proof.Machine

/-! ## The writes of the pull latch sequence -/

/-- Off is the mode whose code is 0 (R22). -/
theorem pullCode_ne_zero_iff {m : PullMode} : pullCode m ≠ 0 ↔ m ≠ .off := by
  cases m <;> decide

/-- Staging a mode other than Off makes the pins under an asserted clock indeterminate (R112, R162). -/
theorem RegFile.pull_stage {rf : RegFile} {a : Word} {m : PullMode} (ha : low2 a = pullCode m) (q : Pin) :
    (rf.writePud a).pull[q] = if m ≠ .off ∧ rf.clk[q] = true then .indeterminate else rf.pull[q] := by
  simp only [RegFile.writePud_pull, pinTable_pin, ha, pullCode_ne_zero_iff]

/-- Staging 0 changes no pull state (R162). -/
theorem RegFile.pull_unstage {rf : RegFile} {b : Word} (hb : low2 b = 0) (q : Pin) :
    (rf.writePud b).pull[q] = rf.pull[q] := by
  rw [RegFile.writePud_pull, pinTable_pin]
  exact if_neg fun h => h.1 hb

/-- A clock that falls changes no pull state (R163). -/
theorem RegFile.pull_release (rf : RegFile) (n : Nat) (q : Pin) : (rf.writePudclk n 0).pull[q] = rf.pull[q] := by
  rw [RegFile.writePudclk_pull, pinTable_pin]
  exact if_neg fun h => Bool.false_ne_true (BitVec.getLsbD_zero.symm.trans h.2)

/-- The one-hot word of a pin, in that pin's bank, has the bit of that pin alone (R13). -/
theorem strobes_iff {p q : Nat} : (q / 32 = p / 32 ∧ (onehot p).getLsbD (q % 32) = true) ↔ q = p := by
  rw [getLsbD_onehot, decide_eq_true_iff]
  omega

/-- The strobe of a pin changes only that pin's pull state (R161). -/
theorem RegFile.pull_strobe (rf : RegFile) (p : Nat) (q : Pin) :
    (rf.writePudclk (p / 32) (onehot p)).pull[q] =
      if q.val = p then strobe (clkbank rf (p / 32)) rf.pud else rf.pull[q] := by
  simp only [RegFile.writePudclk_pull, pinTable_pin, strobes_iff]

/-- In an Idle bank a strobe captures the staged mode (R161). -/
theorem strobe_zero_pullCode (m : PullMode) : strobe 0 (pullCode m) = pullStateOf m := by
  cases m <;> rfl

/-- Two writes of one clock register leave the bits of the second (R114). -/
theorem RegFile.clk_strobe_release (rf : RegFile) (a b v : Word) (n : Nat) (q : Pin) :
    ((((rf.writePud a).writePudclk n v).writePud b).writePudclk n 0).clk[q] =
      if q.val / 32 = n then false else rf.clk[q] := by
  simp only [RegFile.writePudclk_clk, RegFile.writePud_clk, pinTable_pin]
  split
  · exact BitVec.getLsbD_zero
  · rfl

/-- The four writes of the pull latch sequence (R165), a mode staged by the first and 0 by the third, bring the pull latch
to the end state of R166. -/
theorem pullSequenceDone_of_writes {rf : RegFile} {pin : BitVec 32} {m : PullMode} {a b : Word}
    (ha : low2 a = pullCode m) (hb : low2 b = 0) :
    PullSequenceDone pin m rf
      ((((rf.writePud a).writePudclk (pin.toNat / 32) (onehot pin.toNat)).writePud b).writePudclk (pin.toNat / 32) 0) := by
  refine ⟨hb, rf.clk_strobe_release a b _ _, fun q hq => ?strobed, fun q hq => ?other⟩ <;>
    rw [RegFile.pull_release, RegFile.pull_unstage hb, RegFile.pull_strobe]
  case strobed =>
    rw [if_pos hq, RegFile.writePud_pud, ha]
    refine ⟨fun hidle => ?idle, fun hbusy => ?busy⟩
    case idle => exact (congrArg (strobe · _) (clkbank_eq_zero_iff.mpr hidle)).trans (strobe_zero_pullCode m)
    case busy => exact strobe_of_ne_zero (mt clkbank_eq_zero_iff.mp hbusy) _
  case other => rw [if_neg hq, RegFile.pull_stage ha]

/-- From SeqIdle the pull latch sequence sets exactly the pin's pull state and ends in SeqIdle (R45, R166). -/
theorem PullSequenceDone.of_seqIdle {pin : BitVec 32} {m : PullMode} {rf rf' : RegFile}
    (h : PullSequenceDone pin m rf rf') (hidle : rf.SeqIdle) :
    rf'.SeqIdle ∧ ∀ q : Pin, rf'.pull[q] = if q.val = pin.toNat then pullStateOf m else rf.pull[q] := by
  obtain ⟨hpud, hclk, hstrobed, hother⟩ := h
  obtain ⟨-, hnone⟩ := hidle
  refine ⟨⟨hpud, fun q => ?clock⟩, fun q => ?pull⟩
  case clock => rw [hclk q, hnone q, ite_self]
  case pull =>
    by_cases hq : q.val = pin.toNat
    · rw [if_pos hq]
      exact (hstrobed q hq).1 fun p _ => hnone p
    · rw [if_neg hq, hother q hq, hnone q]
      exact if_neg fun h => Bool.false_ne_true h.2

@[simp] theorem State.entered_rf (s : State) (c : Command) : (s.entered c).rf = s.rf := rfl

/-- Past ENTRY the program of SET_PULL is the pull latch sequence (R165). -/
theorem microOp_setPull_eq_pullOp (pin : BitVec 32) (m : PullMode) (t : Word) {n : Nat} (h : 1 ≤ n) :
    microOp (.setPull pin m) n t = pullOp pin m n t := by
  obtain ⟨n, rfl⟩ := Nat.exists_eq_add_of_le' h
  rfl

/-- Settles O27: ENTRY passes, five steps lead to the release of the strobe, and with it the four writes are done. -/
theorem setPullResult : Obligations.SetPullResult := by
  intro s k pin m hidle ho hp
  obtain ⟨s6, t6, hrun, hk6, ⟨a, b, ha, hb, hrf⟩, -, hopens, hlevels⟩ :=
    runToEnd_pullSequence (n := 3) (State.entered_actor hidle.1 (.setPull pin m)) rfl ho rfl
      (fun _ t hpos _ => microOp_setPull_eq_pullOp pin m t hpos) (Nat.le_refl 7) hp
  rw [State.entered_rf] at hrf
  have hk7 := (s6.withRf_actor (s6.rf.writePudclk (pin.toNat / 32) 0)).trans hk6
  have hlast := microStep_write_last (c := .setPull pin m) hk6 rfl rfl rfl (rawError_none ho (pudclkIndex_lt hp))
    (busWrite_release pin.toNat hp s6)
  have hexec : exec (.setPull pin m) s =
      .next (endCommand .ok false (s6.withRf (s6.rf.writePudclk (pin.toNat / 32) 0))) := by
    rw [exec_of_commandOf (c := .setPull pin m) rfl,
      runCommand_entered (c := .setPull pin m) hidle (fun _ => rfl) (Nat.succ_succ_ne_one 5).symm
        (entryError_none ho fun _ => hp),
      hrun, runToEnd_succ hk6 rfl, hlast, andThen_next]
    exact runToEnd_ended hk7 .ok false
  have hdone : PullSequenceDone pin m s.rf (s6.rf.writePudclk (pin.toNat / 32) 0) :=
    hrf ▸ pullSequenceDone_of_writes ha hb
  have hfsel : s6.rf.fsel = s.rf.fsel := by rw [hrf]; rfl
  have hlatch : s6.rf.latch = s.rf.latch := by rw [hrf]; rfl
  exact ⟨_, hexec, ended_endCommand hk7 rfl rfl (by decide), hdone, hfsel, hlatch,
    quiet_runCommand hexec, hopens, hlevels, hdone.of_seqIdle⟩

/-! ## A clock register out of bounds -/

/-- From step 1 of SET_PULL or SETUP two steps stage the mode, whatever the pin, and change nothing else of the register
file (R165). -/
theorem runToEnd_staged {s : State} {k : Ctrl} {c : Command} {pin : BitVec 32} {m : PullMode} (n : Nat)
    (hk : s.actor? = some k) (hc : k.cmd = some c) (hstep : k.step = 1) (ho : k.isOpen = true)
    (hpulls : c.Pulls pin m) :
    ∃ u t a, runToEnd (n + 2) s = runToEnd n u ∧ u.actor? = some { k with step := 3, t := t } ∧
      u.rf = s.rf.writePud a ∧ low2 a = pullCode m := by
  obtain ⟨hlen, hops⟩ := hpulls
  have hraw {k' : Ctrl} (h : k'.isOpen = true) : rawError k' pudIndex = none := rawError_none h (by decide)
  rw [runToEnd_succ hk hc, microStep_read hk hc (hstep ▸ hops 1 _ (by decide)) (by omega) (hraw ho) (busRead_pud s),
    andThen_next]
  generalize hs₂ : State.modifyActor _ _ = s₂
  have hk₂ : s₂.actor? = some (k.setT (readPud s).rdata).advance := by
    rw [← hs₂, State.modifyActor_actor, busRead_actor (busRead_pud s), hk, Option.map_some]
  have hstep₂ : (k.setT (readPud s).rdata).advance.step = 2 := congrArg (· + 1) hstep
  rw [runToEnd_succ hk₂ hc, microStep_write hk₂ hc (by rw [hstep₂, hops 2 _ (by decide)]; rfl) (by omega)
    (hraw ho) (busWrite_pud _ s₂), andThen_next]
  refine ⟨_, (readPud s).rdata, _, rfl, ?actor, ?registers, low2_stage (readPud s).rdata m⟩
  case actor => rw [State.modifyActor_actor, State.withRf_actor, hk₂, Option.map_some, Ctrl.advance, hstep₂]; rfl
  case registers => rw [← hs₂]; rfl

/-- From pin 31552 on the clock register is out of bounds (R167). -/
theorem pudclkIndex_ge {p : Nat} (hp : 31552 ≤ p) : 1024 ≤ pudclkIndex p := by
  rw [pudclkIndex, bank]
  omega

/-- Settles O25: ENTRY passes, two steps stage the mode, and the strobe raises ERR_BOUNDS. -/
theorem pullSequenceBoundsError : Obligations.PullSequenceBoundsError := by
  intro s k pin d m hidle ho hcheck hp i hi
  obtain ⟨c, hcmd, hpulls⟩ := pulls_of_pull_command hi
  obtain ⟨u, t, a, hrun, hk, hrf, ha⟩ := runToEnd_staged 6 (State.entered_actor hidle.1 c) rfl rfl ho hpulls
  have hlen : 1 ≠ programLength c := Nat.ne_of_lt (Nat.lt_of_lt_of_le (by decide) hpulls.length)
  have herror := microStep_error hk rfl (hpulls.microOp 3 _ (by decide))
    (writeReg_error hk (rawError_bounds ho (pudclkIndex_ge hp)))
  have hexec : runCommand c s = .next (endCommand .errBounds false u) := by
    rw [runCommand_entered hidle (fun t => hpulls.microOp 0 t (Nat.zero_le 6)) hlen
        (hcheck ▸ entryError_unchecked ho pin),
      hrun, runToEnd_succ hk rfl, herror, andThen_next]
    exact runToEnd_ended hk .errBounds false
  refine ⟨_, (exec_of_commandOf hcmd s).trans hexec, ended_endCommand hk rfl rfl (by decide), ?_⟩
  rw [endCommand_rf, hrf, State.entered_rf]
  exact ⟨ha, rfl, rfl, rfl, RegFile.pull_stage ha, quiet_runCommand hexec⟩

end Sys2Proof.Machine
end

section
/-! Proofs of the statements of 43_pin_operations.md about OUTPUT and INPUT: what each is on the bus for any pin that passes
ENTRY (O31, O34, R148), and what each does with a valid pin (O30, O33, R181, R182). -/

namespace Sys2Proof.Machine

/-! ## Commands of two steps -/

/-- A command of two steps that passes ENTRY is the one micro-op after it (R181, R182). -/
theorem runCommand_two_steps {c : Command} {s : State} {k : Ctrl} {pin : BitVec 32} {op : MicroOp} (hidle : s.IdleActor k)
    (hentry : c.HasEntry pin) (he : entryError s.pinCheck k pin = none) (hlen : programLength c = 2)
    (hop : ∀ t, microOp c 1 t = some op) :
    runCommand c s = andThen (performMicro op (s.entered c)) fun r => .next (concludeMicro c 1 r.2 r.1) := by
  have hk := State.entered_actor hidle.1 c
  rw [runCommand_entered hidle hentry (by omega) he, runToEnd_succ hk rfl, microStep_eq hk rfl (hop _)]
  cases hr : performMicro op (s.entered c) with
  | next r =>
    obtain ⟨k', hk', -⟩ := performMicro_actor hk hr
    obtain ⟨st, b, h⟩ | ⟨-, hlast, -⟩ := concludeMicro_cases c 1 r.2 r.1
    · rw [andThen_next, andThen_next]
      show runToEnd 7 (concludeMicro c 1 r.2 r.1) = .next (concludeMicro c 1 r.2 r.1)
      rw [h]
      exact runToEnd_ended hk' st b
    · exact absurd hlen.symm hlast
  | fault f => rfl
  | refused q => rfl

/-- ENTRY of an open controller passes when pins are unchecked or the pin is valid (R141). -/
theorem entryError_of_passes {pc : PinCheck} {k : Ctrl} {pin : BitVec 32} (ho : k.isOpen = true)
    (hpass : pc = .unchecked ∨ pin.toNat < 54) : entryError pc k pin = none :=
  entryError_none ho fun hcheck => hpass.resolve_left (by rw [hcheck]; decide)

/-! ## Whether the bus answers -/

/-- A bus transaction that answers in every state, or is refused in every state. -/
def AnswersUniformly (f : State → Result) : Prop :=
  (∀ s, ∃ u, f s = .next u) ∨ ∃ reason : State → Refusal, ∀ s, f s = refuse reason s

theorem AnswersUniformly.refused {f : State → Result} (hf : AnswersUniformly f) {s : State} (h : ∀ u, f s ≠ .next u)
    (s' : State) : ∃ r, f s' = .refused r := by
  obtain hnext | ⟨_, hrefuse⟩ := hf
  · obtain ⟨u, hu⟩ := hnext s
    exact absurd hu (h u)
  · exact ⟨_, hrefuse s'⟩

/-- Whether a bus read is refused depends on its index alone (R101). -/
theorem busRead_answersUniformly (i : Nat) : AnswersUniformly (busRead i) := by
  obtain hi | hi | rfl | hi | hi : i ≤ 5 ∨ (i = 13 ∨ i = 14) ∨ i = pudIndex ∨
      (i = 7 ∨ i = 8 ∨ i = 10 ∨ i = 11 ∨ i = 38 ∨ i = 39) ∨ listedWord i = false := by
    rw [listedWord_eq_false_iff, pudIndex]
    omega
  · exact .inl fun s => ⟨_, busRead_select hi s⟩
  · exact .inl fun s => ⟨_, busRead_level hi s⟩
  · exact .inl fun s => ⟨_, busRead_pud s⟩
  · exact .inr ⟨_, busRead_writeOnly hi⟩
  · exact .inr ⟨_, busRead_unlisted hi⟩

/-- Whether a write of SETn or CLRn is refused depends on the word alone (R105, R107). -/
theorem writeLatches_answersUniformly (n : Nat) (v : Word) (b : Bool) : AnswersUniformly (writeLatches n v b) := by
  by_cases hzero : v = 0
  · exact .inr ⟨_, fun _ => if_pos hzero⟩
  by_cases hres : n = 1 ∧ reservedBank1 v ≠ 0
  · exact .inr ⟨_, fun _ => (if_neg hzero).trans (if_pos hres)⟩
  · exact .inl fun _ => ⟨_, (if_neg hzero).trans (if_neg hres)⟩

/-- Whether a write of PUDCLKn is refused depends on the word alone (R114). -/
theorem writePudclk_answersUniformly (n : Nat) (v : Word) : AnswersUniformly (writePudclk n v) := by
  by_cases hres : n = 1 ∧ reservedBank1 v ≠ 0
  · exact .inr ⟨_, fun _ => if_pos hres⟩
  · exact .inl fun _ => ⟨_, if_neg hres⟩

/-- Whether a bus write is refused depends on its index and its word alone (R101). -/
theorem busWrite_answersUniformly (i : Nat) (v : Word) : AnswersUniformly (busWrite i v) := by
  obtain hi | hi | hi | hi | rfl | hi | hi : i ≤ 5 ∨ (i = 7 ∨ i = 8) ∨ (i = 10 ∨ i = 11) ∨ (i = 13 ∨ i = 14) ∨
      i = pudIndex ∨ (i = 38 ∨ i = 39) ∨ listedWord i = false := by
    rw [listedWord_eq_false_iff, pudIndex]
    omega
  · exact .inl fun s => ⟨_, busWrite_select hi v s⟩
  · rw [funext (busWrite_setWord hi v)]
    exact writeLatches_answersUniformly _ v true
  · rw [funext (busWrite_clrWord hi v)]
    exact writeLatches_answersUniformly _ v false
  · exact .inr ⟨_, busWrite_level hi v⟩
  · exact .inl fun s => ⟨_, busWrite_pud v s⟩
  · rw [funext (busWrite_clock hi v)]
    exact writePudclk_answersUniformly _ v
  · exact .inr ⟨_, busWrite_unlisted hi v⟩

/-- A READ_REG whose bus read is refused is refused (R14). -/
theorem readReg_refused {i : Nat} {s : State} {k : Ctrl} {r : Refusal} (hk : s.actor? = some k)
    (he : rawError k i = none) (h : busRead i s = .refused r) : readReg i s = .refused r := by
  rw [readReg, withActor_some hk, he, h]
  rfl

/-- A WRITE_REG whose bus write is refused is refused (R14). -/
theorem writeReg_refused {i : Nat} {v : Word} {s : State} {k : Ctrl} {r : Refusal} (hk : s.actor? = some k)
    (he : rawError k i = none) (h : busWrite i v s = .refused r) : writeReg i v s = .refused r := by
  rw [writeReg, withActor_some hk, he, h]
  rfl

/-! ## OUTPUT -/

section
variable {s : State} {k : Ctrl} {pin : BitVec 32} {l : PinLevel} (hidle : s.IdleActor k)
  (he : entryError s.pinCheck k pin = none)
include hidle he

/-- OUTPUT is one WRITE_REG after ENTRY (R181). -/
theorem exec_output_eq :
    exec (.output pin l) s = andThen (writeReg (outputIndex pin l) (onehot pin.toNat) (s.entered (.output pin l)))
      fun r => .next (concludeMicro (.output pin l) 1 r.2 r.1) :=
  runCommand_two_steps (c := .output pin l) hidle (fun _ => rfl) he rfl (microOp_output_one pin l)

variable (ho : k.isOpen = true)
include ho

/-- An OUTPUT out of bounds ends with its error (R148). -/
theorem exec_output_bounds (hi : 1024 ≤ outputIndex pin l) :
    exec (.output pin l) s = .next (endCommand .errBounds false (s.entered (.output pin l))) := by
  rw [exec_output_eq hidle he, writeReg_error (State.entered_actor hidle.1 _) (rawError_bounds ho hi), andThen_next,
    concludeMicro_error]

/-- An OUTPUT whose bus write answers ends with OK, and but for the acting controller and the count of draws the state is
as that write leaves it (R181). -/
theorem exec_output_write {u : State} (hi : outputIndex pin l < 1024)
    (h : busWrite (outputIndex pin l) (onehot pin.toNat) s = .next u) :
    exec (.output pin l) s = .next (endCommand .ok false (u.entered (.output pin l))) := by
  rw [exec_output_eq hidle he, writeReg_next (State.entered_actor hidle.1 _) (rawError_none ho hi)
      (s' := u.entered (.output pin l)) (busWrite_modifyActor _ h), andThen_next,
    concludeMicro_last rfl _ (State.entered_actor ((busWrite_actor h).trans hidle.1) _)]
  rfl

end

/-- Settles O31: after ENTRY an OUTPUT is one WRITE_REG, and whether its bus write is refused does not depend on the
controllers. -/
theorem outputIsOneWrite : Obligations.OutputIsOneWrite := by
  intro s k pin l i hidle ho hpass hi
  have he := entryError_of_passes ho hpass
  obtain rfl : i = outputIndex pin l := by cases l <;> exact hi
  refine ⟨fun hge => ?bounds, fun hlt u hu => ?written, fun hlt hnot => ?refused⟩
  case bounds =>
    have hexec := exec_output_bounds hidle he ho hge
    exact ⟨_, hexec, ended_endCommand (State.entered_actor hidle.1 _) rfl rfl (by decide), rfl, quiet_runCommand hexec⟩
  case written =>
    obtain ⟨t, hexec, hended, hrf⟩ := exec_output_of_busWrite hidle ho he hlt hu
    exact ⟨t, hexec, hended, hrf, quiet_runCommand hexec⟩
  case refused =>
    obtain ⟨r, hr⟩ := (busWrite_answersUniformly _ _).refused hnot (s.entered (.output pin l))
    refine ⟨r, ?_⟩
    rw [exec_output_eq hidle he, writeReg_refused (State.entered_actor hidle.1 _) (rawError_none ho hlt) hr,
      andThen_refused]

/-- The set and the clear register of a valid pin are in the window (R148). -/
theorem outputIndex_lt {pin : BitVec 32} (hp : pin.toNat < 54) (l : PinLevel) : outputIndex pin l < 1024 := by
  cases l
  · exact clrIndex_lt hp
  · exact setIndex_lt hp

/-- The bus write of the OUTPUT of a valid pin answers (R105, R107, R148). -/
theorem busWrite_output {pin : BitVec 32} (hp : pin.toNat < 54) (l : PinLevel) (s : State) :
    busWrite (outputIndex pin l) (onehot pin.toNat) s =
      .next (s.withRf (s.rf.writeLatches (pin.toNat / 32) (onehot pin.toNat) (levelBool l))) := by
  cases l
  · exact busWrite_clr _ hp s
  · exact busWrite_set _ hp s

/-- Settles O30: the one bus write changes the latch whose bit is the one of the one-hot word. -/
theorem outputResult : Obligations.OutputResult := by
  intro s k pin l hidle ho hp
  have hexec := exec_output_write hidle (entryError_of_passes ho (.inr hp)) ho (outputIndex_lt hp l) (busWrite_output hp l s)
  have hk := State.entered_actor (s := s.withRf _) hidle.1 (.output pin l)
  refine ⟨_, hexec, ended_endCommand hk rfl rfl (by rfl), rfl, fun q => ?_, quiet_runCommand hexec, rfl, rfl, rfl⟩
  rw [endCommand_rf, State.entered_rf, State.withRf_rf, RegFile.writeLatches_latch, pinTable_pin]
  simp only [strobes_iff]

/-! ## INPUT -/

/-- The level INPUT answers is the pin's bit of the datum (R182). -/
theorem responseLevel_input (pin : BitVec 32) (t : Word) :
    responseLevel (.input pin) t = t.getLsbD (pin.toNat % 32) := by
  have hand : t &&& onehot pin.toNat = if t.getLsbD (pin.toNat % 32) then onehot pin.toNat else 0#32 :=
    BitVec.and_twoPow t _
  rw [responseLevel, hand]
  split
  next hbit => rw [hbit]; exact decide_eq_true (onehot_ne_zero _)
  next hbit => rw [Bool.eq_false_of_not_eq_true hbit]; exact decide_eq_false fun h => h rfl

/-- The response word of a command that completed (R89). -/
theorem rspWord_ok (b : Bool) : rspWord .ok b = if b = true then 0x100#32 else 0x0#32 := by
  cases b <;> decide

section
variable {s : State} {k : Ctrl} {pin : BitVec 32} (hidle : s.IdleActor k) (he : entryError s.pinCheck k pin = none)
include hidle he

/-- INPUT is one READ_REG after ENTRY (R182). -/
theorem exec_input_eq :
    exec (.input pin) s = andThen (readReg (levIndex pin.toNat) (s.entered (.input pin)))
      fun r => .next (concludeMicro (.input pin) 1 r.2 r.1) :=
  runCommand_two_steps (c := .input pin) hidle (fun _ => rfl) he rfl fun _ => rfl

variable (ho : k.isOpen = true)
include ho

/-- An INPUT out of bounds ends with its error (R148). -/
theorem exec_input_bounds (hi : 1024 ≤ levIndex pin.toNat) :
    exec (.input pin) s = .next (endCommand .errBounds false (s.entered (.input pin))) := by
  rw [exec_input_eq hidle he, readReg_error (State.entered_actor hidle.1 _) (rawError_bounds ho hi), andThen_next,
    concludeMicro_error]

/-- An INPUT whose bus read answers ends with OK and the pin's bit of the datum, and but for the acting controller the
state is as that read leaves it (R182). -/
theorem exec_input_read {u : State} (hi : levIndex pin.toNat < 1024) (h : busRead (levIndex pin.toNat) s = .next u) :
    ∃ t, exec (.input pin) s = .next t ∧
      Ended k (if u.rdata.getLsbD (pin.toNat % 32) = true then 0x100#32 else 0x0#32) t ∧ t.rf = s.rf ∧ Quiet s t ∧
      t.opens = u.opens ∧ t.levels = u.levels := by
  have hk := State.entered_actor ((busRead_actor h).trans hidle.1) (.input pin)
  generalize hv : (u.entered (.input pin)).modifyActor (fun k => k.setT u.rdata) = v
  have hkv : v.actor? = some ((k.accept (.input pin)).advance.setT u.rdata) := by
    rw [← hv, State.modifyActor_actor, hk, Option.map_some]
  have hexec : exec (.input pin) s = .next (endCommand .ok (responseLevel (.input pin) u.rdata) v) := by
    rw [exec_input_eq hidle he, readReg_next (State.entered_actor hidle.1 _) (rawError_none ho hi)
      (s' := u.entered (.input pin)) (busRead_modifyActor _ h), andThen_next, ← hv, concludeMicro_last rfl _ (hv ▸ hkv)]
    rfl
  refine ⟨_, hexec, ended_endCommand hkv rfl rfl ?_, ?_, quiet_runCommand hexec, ?_, ?_⟩
  · rw [rspWord_ok, responseLevel_input]
  · rw [← hv]; exact (busRead_rf h : u.rf = s.rf)
  · rw [← hv]; rfl
  · rw [← hv]; rfl

end

/-- Settles O34: after ENTRY an INPUT is one READ_REG, and whether its bus read is refused does not depend on the
controllers. -/
theorem inputIsOneRead : Obligations.InputIsOneRead := by
  intro s k pin i hidle ho hpass hi
  have he := entryError_of_passes ho hpass
  obtain rfl : i = levIndex pin.toNat := hi
  refine ⟨fun hge => ?bounds, fun hlt u hu => ?read, fun hlt hnot => ?refused⟩
  case bounds =>
    have hexec := exec_input_bounds hidle he ho hge
    have hk := State.entered_actor hidle.1 (.input pin)
    exact ⟨_, hexec, ended_endCommand hk rfl rfl (by decide), rfl, rfl, quiet_runCommand hexec⟩
  case read =>
    obtain ⟨t, hexec, hended, hrf, hquiet, -, -⟩ := exec_input_read hidle he ho hlt hu
    exact ⟨t, hexec, hended, hrf, hquiet⟩
  case refused =>
    obtain ⟨r, hr⟩ := (busRead_answersUniformly _).refused hnot (s.entered (.input pin))
    refine ⟨r, ?_⟩
    rw [exec_input_eq hidle he, readReg_refused (State.entered_actor hidle.1 _) (rawError_none ho hlt) hr,
      andThen_refused]

/-- The level of a valid pin: the latch of an output, the environment's level of any other pin (R30). -/
theorem getLsbD_levelWord_pin (rf : RegFile) {p : Nat} (hp : p < 54) (ext : BitVec 64) :
    (levelWord rf (p / 32) ext).getLsbD (p % 32) = if rf.fsel[p] = 1#3 then rf.latch[p] else ext.getLsbD p := by
  split
  next hout => exact getLsbD_levelWord_output (p := ⟨p, hp⟩) hout ext
  next hout =>
    have hpin : 32 * (p / 32) + p % 32 = p := Nat.div_add_mod p 32
    rw [getLsbD_levelWord_draw (Nat.mod_lt p (by decide)) (fun _ => by simpa only [hpin] using hout), hpin]

/-- Settles O33: the datum is the pin's level word, which has the pin's level at its bit. -/
theorem inputResult : Obligations.InputResult := by
  intro s k pin hp hidle ho
  obtain ⟨t, hexec, hended, hrf, hquiet, hopens, hlevels⟩ :=
    exec_input_read hidle (entryError_of_passes ho (.inr hp)) ho (levIndex_lt hp) (busRead_lev _ hp s)
  have hdata : (readLev (pin.toNat / 32) s).rdata = levelWord s.rf (pin.toNat / 32) s.nextLevels := rfl
  rw [hdata, getLsbD_levelWord_pin s.rf hp] at hended
  exact ⟨t, hexec, hended, hrf, hquiet, hopens, hlevels⟩

end Sys2Proof.Machine
end

section
/-! Proofs of the statements of 43_pin_operations.md about SETUP: what it does with a valid pin (O28, R180, R183), the order
of its writes (O29, R184), and the loopback property (O35, R186). -/

namespace Sys2Proof.Machine

/-! ## The pull latch, then the direction -/

/-- Writing back a select register with the field of one pin replaced changes the field of that pin alone (R180, R183). -/
theorem RegFile.fsel_writeFsel_replaceField (rf : RegFile) (p : Nat) (d : PinDirection) (free : Word) (q : Pin) :
    (rf.writeFsel (p / 10) (replaceField (fselWord rf (p / 10) free) (fselShift p) d)).fsel[q] =
      if q.val = p then dirCode d else rf.fsel[q] := by
  rw [RegFile.writeFsel_fsel, pinTable_pin, fselField_replaceField]
  by_cases hreg : q.val / 10 = p / 10
  · rw [if_pos hreg, ← hreg, fselField_fselWord]
    exact if_congr (by omega) rfl rfl
  · rw [if_neg hreg, if_neg (by omega)]

/-- From step 7 of the SETUP of a valid pin two steps end it with OK: they read the select register and write it back with
the pin's field replaced (R180). -/
theorem runToEnd_setup_direction {s : State} {k : Ctrl} {pin : BitVec 32} {d : PinDirection} {m : PullMode} (n : Nat)
    (hk : s.actor? = some k) (hc : k.cmd = some (.setup pin d m)) (ho : k.isOpen = true) (hstep : k.step = 7)
    (hp : pin.toNat < 54) :
    ∃ t f, runToEnd (n + 2) s = .next t ∧ Ended k 0x0#32 t ∧ t.rf = { s.rf with fsel := f } ∧
      (∀ q : Pin, f[q] = if q.val = pin.toNat then dirCode d else s.rf.fsel[q]) ∧ t.opens = s.opens ∧
      t.levels = s.levels := by
  have hop : microOp (.setup pin d m) k.step k.t = some (.read (fselIndex pin.toNat)) := by rw [hstep]; rfl
  have hnotLast : k.step + 1 ≠ programLength (.setup pin d m) := by rw [hstep]; exact Nat.ne_of_lt (Nat.lt_succ_self 8)
  have hread := microStep_read hk hc hop hnotLast (rawError_none ho (fselIndex_lt hp)) (busRead_fsel _ hp s)
  rw [runToEnd_succ hk hc, hread, andThen_next]
  generalize hs₈ : State.modifyActor _ _ = s₈
  have hk₈ : s₈.actor? = some (k.setT (readFsel (pin.toNat / 10) s).rdata).advance := by
    rw [← hs₈, State.modifyActor_actor, busRead_actor (busRead_fsel _ hp s), hk, Option.map_some]
  have hrf₈ : s₈.rf = s.rf := by rw [← hs₈]; rfl
  have hlast := microStep_setup_last hk₈ ho hc (congrArg (· + 1) hstep) hp
  rw [hrf₈] at hlast
  have hk₉ (rf : RegFile) := (s₈.withRf_actor rf).trans hk₈
  rw [runToEnd_succ hk₈ hc, hlast, andThen_next]
  refine ⟨_, _, runToEnd_ended (hk₉ _) .ok false, ended_endCommand (hk₉ _) rfl rfl (by rfl), rfl, fun q => ?fields,
    ?opens, ?levels⟩
  case fields => exact s.rf.fsel_writeFsel_replaceField _ d _ q
  case opens => rw [← hs₈]; rfl
  case levels => rw [← hs₈]; rfl

/-- Past ENTRY the next six steps of SETUP are the pull latch sequence (R180). -/
theorem microOp_setup_eq_pullOp (pin : BitVec 32) (d : PinDirection) (m : PullMode) (t : Word) {n : Nat} (hpos : 1 ≤ n)
    (hle : n ≤ 6) : microOp (.setup pin d m) n t = pullOp pin m n t :=
  (microOp_setup_eq_setPull pin d m hle).trans (microOp_setPull_eq_pullOp pin m t hpos)

/-- Seven steps of the SETUP of a valid pin pass ENTRY and leave the pull latch as SET_PULL does (R166, R180). -/
theorem exec_setup_pulled {s : State} {k : Ctrl} {pin : BitVec 32} {d : PinDirection} {m : PullMode}
    (hidle : s.IdleActor k) (ho : k.isOpen = true) (hp : pin.toNat < 54) :
    ∃ u k', exec (.setup pin d m) s = runToEnd 2 u ∧ u.actor? = some k' ∧ k'.cmd = some (.setup pin d m) ∧
      k'.step = 7 ∧ k'.isOpen = k.isOpen ∧ k'.pending = k.pending ∧ PullSequenceDone pin m s.rf u.rf ∧
      u.rf.fsel = s.rf.fsel ∧ u.rf.latch = s.rf.latch ∧ u.opens = s.opens ∧ u.levels = s.levels := by
  obtain ⟨s6, t6, hrun, hk6, ⟨a, b, ha, hb, hrf⟩, -, hopens, hlevels⟩ :=
    runToEnd_pullSequence (n := 3) (State.entered_actor hidle.1 (.setup pin d m)) rfl ho rfl
      (fun _ t hpos hle => microOp_setup_eq_pullOp pin d m t hpos hle) (Nat.le_add_right 7 2) hp
  rw [State.entered_rf] at hrf
  have hrelease := microStep_write (c := .setup pin d m) hk6 rfl rfl (show 7 ≠ 9 by decide)
    (rawError_none ho (pudclkIndex_lt hp)) (busWrite_release pin.toNat hp s6)
  have hk7 := (State.modifyActor_actor _ Ctrl.advance).trans
    (congrArg (Option.map Ctrl.advance) ((s6.withRf_actor (s6.rf.writePudclk (pin.toNat / 32) 0)).trans hk6))
  refine ⟨_, _, ?run, hk7, rfl, rfl, rfl, rfl, ?pulled, ?fsel, ?latch, hopens, hlevels⟩
  case run =>
    rw [exec_of_commandOf (c := .setup pin d m) rfl,
      runCommand_entered (c := .setup pin d m) hidle (fun _ => rfl) (Nat.succ_succ_ne_one 7).symm
        (entryError_none ho fun _ => hp),
      hrun, runToEnd_succ hk6 rfl, hrelease, andThen_next]
  all_goals rw [State.modifyActor_rf, State.withRf_rf, hrf]
  case pulled => exact pullSequenceDone_of_writes ha hb
  case fsel => rfl
  case latch => rfl

/-- The output enable of a pin whose field is a direction code is 1 exactly for Output (R34). -/
theorem padOe_of_dirCode {rf : RegFile} {q : Pin} {d : PinDirection} (h : rf.fsel[q] = dirCode d) :
    padOe rf q = decide (d = .output) := by
  rw [padOe, h]
  cases d <;> rfl

/-- Settles O28: seven steps leave the pull latch as SET_PULL does, and two write the direction. -/
theorem setupResult : Obligations.SetupResult := by
  intro s k pin d m hidle ho hp
  obtain ⟨u, k', hrun, hk, hc, hstep, hopen, hpending, hpulled, hfsel, hlatch, hopens, hlevels⟩ :=
    exec_setup_pulled hidle ho hp
  obtain ⟨t, f, hend, ⟨v, hactor⟩, hrf, hfields, hopens', hlevels'⟩ :=
    runToEnd_setup_direction 0 hk hc (hopen.trans ho) hstep hp
  have hexec := hrun.trans hend
  have hfields' (q : Pin) : t.rf.fsel[q] = if q.val = pin.toNat then dirCode d else s.rf.fsel[q] := by
    rw [hrf, ← hfsel]
    exact hfields q
  refine ⟨t, hexec, ⟨v, by rw [hactor, hopen, hpending]⟩, hrf ▸ hpulled, hfields', hrf ▸ hlatch, fun q hq => ?_,
    quiet_runCommand hexec, hopens'.trans hopens, hlevels'.trans hlevels⟩
  exact padOe_of_dirCode ((hfields' q).trans (if_pos hq))

/-! ## The order of the writes of a SETUP -/

/-- A micro-op leaves the register file alone, or is a bus write. -/
theorem performMicro_rf_cases {op : MicroOp} {s : State} {r : State × Option Status} (h : performMicro op s = .next r) :
    r.1.rf = s.rf ∨ ∃ i v u, op = .write i v ∧ busWrite i v s = .next u ∧ r.1.rf = u.rf := by
  cases op with
  | entry pin =>
    obtain ⟨_, -, h⟩ := withActor_eq_next h
    cases h
    exact .inl rfl
  | openWindow =>
    obtain ⟨_, -, h⟩ := withActor_eq_next h
    split at h <;> cases h <;> exact .inl rfl
  | closeWindow =>
    obtain ⟨_, -, h⟩ := withActor_eq_next h
    split at h <;> cases h <;> exact .inl rfl
  | read i => exact .inl (readReg_rf h)
  | write i v =>
    obtain ⟨_, -, ⟨u, -, hu, rfl⟩ | ⟨_, -, rfl⟩⟩ := writeReg_cases h
    · exact .inr ⟨i, v, u, rfl, hu, rfl⟩
    · exact .inl rfl

/-- Only a write of a select register changes a function-select field (R103). -/
theorem busWrite_fsel_of_gt {i : Nat} {v : Word} {s u : State} (hi : 5 < i) (h : busWrite i v s = .next u) :
    u.rf.fsel = s.rf.fsel := by
  obtain ⟨hle, -⟩ | ⟨-, rfl⟩ | ⟨-, rfl⟩ | ⟨-, rfl⟩ | ⟨-, rfl⟩ := busWrite_cases h
  · omega
  all_goals rfl

/-- A write of a select register changes no part of the pull latch (R103). -/
theorem busWrite_pullLatch_of_le {i : Nat} {v : Word} {s u : State} (hi : i ≤ 5) (h : busWrite i v s = .next u) :
    u.rf.pull = s.rf.pull ∧ u.rf.clk = s.rf.clk ∧ u.rf.pud = s.rf.pud := by
  cases (busWrite_select hi v s).symm.trans h
  exact ⟨rfl, rfl, rfl⟩

/-- The pull latch sequence writes no register before PUD (R165). -/
theorem pullOp_write_ge {pin : BitVec 32} {m : PullMode} {n i : Nat} {t v : Word}
    (h : pullOp pin m n t = some (.write i v)) : pudIndex ≤ i := by
  have hclock : pudIndex ≤ pudclkIndex pin.toNat := Nat.le_add_right_of_le (by decide)
  unfold pullOp at h
  split at h <;> cases h
  · exact Nat.le_refl _
  · exact hclock
  · exact Nat.le_refl _
  · exact hclock

/-- Before its last step a SETUP writes no select register (R180). -/
theorem setup_write_gt {pin : BitVec 32} {d : PinDirection} {m : PullMode} {n i : Nat} {t v : Word} (hn : n < 8)
    (h : microOp (.setup pin d m) n t = some (.write i v)) : 5 < i := by
  obtain rfl | rfl | ⟨hpos, hle⟩ : n = 0 ∨ n = 7 ∨ (1 ≤ n ∧ n ≤ 6) := by omega
  · cases h
  · cases h
  · rw [microOp_setup_eq_pullOp pin d m t hpos hle] at h
    exact Nat.lt_of_lt_of_le (by decide) (pullOp_write_ge h)

/-- After its sixth step the SETUP of a valid pin writes a select register only (R180). -/
theorem setup_write_le {pin : BitVec 32} {d : PinDirection} {m : PullMode} {n i : Nat} {t v : Word} (hn : 6 < n)
    (hp : pin.toNat < 54) (h : microOp (.setup pin d m) n t = some (.write i v)) : i ≤ 5 := by
  obtain ⟨n, rfl⟩ := Nat.exists_eq_add_of_le' hn
  match n with
  | 0 | _ + 2 => cases h
  | 1 =>
    cases h
    rw [fselIndex_eq_div]
    omega

/-- Settles O29: the micro-op of the step leaves the register file alone, or is the write that the program has there. -/
theorem setupPullBeforeDirection : Obligations.SetupPullBeforeDirection := by
  intro s t k pin d m hk hc hp h
  obtain ⟨k', hk', ⟨hidle, -⟩ | ⟨c, op, r, hc', hop, hr, rfl⟩⟩ := microStep_cases h <;> cases hk.symm.trans hk'
  · cases hc.symm.trans hidle
  cases hc.symm.trans hc'
  rw [concludeMicro_rf]
  obtain hsame | ⟨i, v, u, rfl, hu, hrf⟩ := performMicro_rf_cases hr
  · rw [hsame]
    exact ⟨fun _ => rfl, fun _ => ⟨rfl, rfl, rfl⟩⟩
  · rw [hrf]
    exact ⟨fun hn => busWrite_fsel_of_gt (setup_write_gt hn hop) hu,
      fun hn => busWrite_pullLatch_of_le (setup_write_le hn hp hop) hu⟩

/-! ## The loopback property -/

/-- A controller that ended its command is idle, as open as before, and has answered. -/
theorem Ended.idleActor {k : Ctrl} {w : Word} {t : State} (h : Ended k w t) :
    ∃ k', t.IdleActor k' ∧ k'.isOpen = k.isOpen ∧ k'.rsp = some w := by
  obtain ⟨_, hactor⟩ := h
  exact ⟨_, ⟨hactor, rfl⟩, rfl, rfl⟩

/-- Settles O35: SETUP makes the pin an output, OUTPUT sets its latch and leaves its direction, and INPUT of an output
answers the latch. -/
theorem loopbackReadsHigh : Obligations.LoopbackReadsHigh := by
  intro s k pin m hidle ho hp
  obtain ⟨t1, h1, hended1, -, hfields, -⟩ := setupResult s k pin .output m hidle ho hp
  obtain ⟨k1, hidle1, ho1, -⟩ := hended1.idleActor
  obtain ⟨t2, h2, hended2, hrf2, hlatches, -⟩ := outputResult t1 k1 pin .high hidle1 (ho1.trans ho) hp
  obtain ⟨k2, hidle2, ho2, -⟩ := hended2.idleActor
  obtain ⟨t3, h3, hended3, -⟩ := inputResult t2 k2 pin hp hidle2 (ho2.trans (ho1.trans ho))
  have hout : t2.rf.fsel[pin.toNat] = 1#3 := by
    rw [hrf2]
    exact (hfields ⟨pin.toNat, hp⟩).trans (if_pos rfl)
  have hhigh : t2.rf.latch[pin.toNat] = true := (hlatches ⟨pin.toNat, hp⟩).trans (if_pos rfl)
  rw [if_pos hout, if_pos hhigh] at hended3
  obtain ⟨k3, hidle3, -, hrsp⟩ := hended3.idleActor
  exact ⟨t1, t2, t3, k3, h1, h2, h3, hidle3.1, hrsp⟩

end Sys2Proof.Machine
end

section
/-! Proofs of the statements of 60_exceptions.md: a raised error ends its command (O15, R202), an instruction acts on one
controller (O56, R213), and an idle block waits (O16, R215). -/

namespace Sys2Proof.Machine

/-! ## A micro-op that raises an error -/

/-- A change that leaves the acting controller as it is changes nothing. -/
theorem State.modifyActor_eq_self {s : State} {k : Ctrl} {f : Ctrl → Ctrl} (hk : s.actor? = some k) (hf : f k = k) :
    s.modifyActor f = s := by
  obtain ⟨hlt, hget⟩ := List.getElem?_eq_some_iff.mp hk
  have hctrls : s.ctrls.modify s.cur f = s.ctrls := by
    rw [List.modify_eq_set_get f hlt, List.get_eq_getElem, hget, hf, ← hget, List.set_getElem_self]
  rw [State.modifyActor, hctrls]

/-- A micro-op that raises an error changes nothing, but that an OPEN refused by the environment has used its outcome
(R141 to R143, R146, R147). -/
theorem performMicro_error_cases {op : MicroOp} {s s' : State} {st : Status}
    (h : performMicro op s = .next (s', some st)) : s' = s ∨ s' = s.dropOpen := by
  cases op with
  | entry pin =>
    obtain ⟨k, -, hentry⟩ := withActor_eq_next h
    simp only [Host.Outcome.next.injEq, Prod.mk.injEq] at hentry
    exact .inl hentry.1.symm
  | openWindow =>
    obtain ⟨k, hk, -⟩ := withActor_eq_next h
    cases ho : k.isOpen with
    | true =>
      cases (openWindow_open hk ho).symm.trans h
      exact .inl rfl
    | false =>
      have hopen := (openWindow_closed hk ho).symm.trans h
      simp only [Host.Outcome.next.injEq, Prod.mk.injEq] at hopen
      obtain ⟨rfl, herr⟩ := hopen
      have hfail : s.nextOpen ≠ .ok := fun hok => by simp [hok, openError] at herr
      exact .inr (State.modifyActor_eq_self (k := k) hk (by simp [Ctrl.setOpen, hfail, ← ho]))
  | closeWindow =>
    obtain ⟨k, -, h⟩ := withActor_eq_next h
    split at h <;> cases h
    exact .inl rfl
  | read i =>
    obtain ⟨k, -, ⟨_, -, -, hr⟩ | ⟨_, -, hr⟩⟩ := readReg_cases h <;> cases hr
    exact .inl rfl
  | write i v =>
    obtain ⟨k, -, ⟨_, -, -, hr⟩ | ⟨_, -, hr⟩⟩ := writeReg_cases h <;> cases hr
    exact .inl rfl

/-- A micro-op that raises an error leaves the acting controller and the register file as they were (R202). -/
theorem performMicro_error_frame {op : MicroOp} {s s' : State} {st : Status}
    (h : performMicro op s = .next (s', some st)) : s'.actor? = s.actor? ∧ s'.rf = s.rf := by
  obtain rfl | rfl := performMicro_error_cases h <;> exact ⟨rfl, rfl⟩

/-- Settles O15: the failing micro-op leaves controller and register file alone, and `endCommand` ends the command. -/
theorem errorEndsCommand : Obligations.ErrorEndsCommand := by
  intro s s' k cmd op st hk hc hop h
  obtain ⟨hactor, hrf⟩ := performMicro_error_frame h
  have hmicro := microStep_error hk hc hop h
  exact ⟨_, hmicro, ended_endCommand (hactor.trans hk) rfl rfl rfl, hrf, quiet_microStep hmicro⟩

/-! ## One controller acts -/

/-- Settles O56: an instruction is a command, a raw access or a bus access, each of which acts on one controller at most. -/
theorem instructionsActOnOneController : Obligations.InstructionsActOnOneController := by
  intro i s t h
  cases exec_meaning i with
  | command c e => exact quiet_runCommand ((e s).symm.trans h)
  | raw op _ e => exact quiet_settleError (fun _ => quiet_performMicro) ((e s).symm.trans h)
  | read n e => exact quiet_busRead ((e s).symm.trans h)
  | write n v e => exact quiet_busWrite ((e s).symm.trans h)

/-! ## Which controller moves -/

theorem Ctrl.ready_eq_false_iff {k : Ctrl} : k.ready = false ↔ k.cmd = none ∧ k.pending = [] := by
  simp [Ctrl.ready]

theorem Ctrl.ready_eq_true_iff {k : Ctrl} : k.ready = true ↔ k.cmd ≠ none ∨ k.pending ≠ [] := by
  simp [Ctrl.ready, Option.isSome_iff_ne_none]

/-- The first controller that can move is the first of the list that is ready. -/
theorem firstReady_eq_findIdx? (c : Nat) (ks : List Ctrl) :
    firstReady c ks = (ks.findIdx? Ctrl.ready).map (c + ·) := by
  induction ks generalizing c with
  | nil => rfl
  | cons k ks ih =>
    rw [firstReady, List.findIdx?_cons, ih]
    split
    · rfl
    · simp [Nat.add_comm, Nat.add_left_comm, Function.comp_def]

theorem firstReady_zero (ks : List Ctrl) : firstReady 0 ks = ks.findIdx? Ctrl.ready := by
  simp [firstReady_eq_findIdx?]

/-- No controller can move if each is idle without a word. -/
theorem firstReady_eq_none {ks : List Ctrl} (h : ∀ k ∈ ks, k.cmd = none ∧ k.pending = []) : firstReady 0 ks = none := by
  rw [firstReady_zero, List.findIdx?_eq_none_iff]
  exact fun k hk => Ctrl.ready_eq_false_iff.mpr (h k hk)

/-- A controller that can move is the first one if every one before it is idle without a word. -/
theorem firstReady_eq_some {ks : List Ctrl} {c : Nat} {k : Ctrl} (hk : ks[c]? = some k)
    (hready : k.cmd ≠ none ∨ k.pending ≠ [])
    (hbefore : ∀ (j : Nat) (k' : Ctrl), j < c → ks[j]? = some k' → k'.cmd = none ∧ k'.pending = []) :
    firstReady 0 ks = some c := by
  obtain ⟨hlt, rfl⟩ := List.getElem?_eq_some_iff.mp hk
  rw [firstReady_zero, List.findIdx?_eq_some_iff_getElem]
  refine ⟨hlt, Ctrl.ready_eq_true_iff.mpr hready, fun j hj => ?_⟩
  have hidle := hbefore j _ hj (List.getElem?_eq_getElem (hj.trans hlt))
  rw [Ctrl.ready_eq_false_iff.mpr hidle]
  exact Bool.false_ne_true

/-- Settles O16: with an empty schedule `fetch` looks for the first ready controller, and gives it the turn if there is
one. -/
theorem idleBlockWaits : Obligations.IdleBlockWaits := by
  intro s hr hs
  refine ⟨fun hidle => ?waits, fun c k hk hready hbefore => ?moves⟩
  case waits =>
    exact step_of_fetch_done (by simp [fetch, hr, hs, firstReady_eq_none hidle])
  case moves =>
    have hfetch : fetch s = fetchTurn (.ctrl c) s := by simp [fetch, hr, hs, firstReady_eq_some hk hready hbefore]
    rw [step_eq_result, hfetch, step_of_sched (s := { s with sched := [.ctrl c] }) hr rfl, ← hs]

end Sys2Proof.Machine
end

section
/-! Proof of the statement of 70_reset_and_hazards.md about a reset from outside (O9, R44, R230). -/

namespace Sys2Proof.Machine

/-! ## Reset -/

/-- A reset makes each controller anew and leaves it the words its host still has to give (R44, log entry 18). -/
theorem getElem?_resetCtrls (n c : Nat) (ks : List Ctrl) (i : Nat) :
    (resetCtrls n c ks)[i]? = ks[i]?.map fun k => Ctrl.reset n (c + i) k.pending := by
  induction ks generalizing c i with
  | nil => rfl
  | cons k ks ih =>
    cases i with
    | zero => rfl
    | succ i => rw [resetCtrls, List.getElem?_cons_succ, List.getElem?_cons_succ, ih, Nat.add_right_comm, Nat.add_assoc]

theorem getElem?_resetBlock (s : State) (c : Nat) :
    (resetBlock s).ctrls[c]? = s.ctrls[c]?.map fun k => Ctrl.reset s.draws c k.pending := by
  rw [resetBlock, getElem?_resetCtrls, Nat.zero_add]

/-- Settles O9: the turn answers the reset block, whose tables are made from the draws of their pins and whose controllers
are made by `Ctrl.reset`. -/
theorem resetTurn : Obligations.ResetTurn := by
  intro s rest hr hs
  refine ⟨resetBlock { s with sched := rest }, step_of_sched hr hs, rfl, RegFile.reset_noStrobe _, rfl,
    length_resetCtrls _ _ _, fun k hk => ?_, fun c => ?_,
    fun p => ⟨RegFile.reset_fsel _ p, RegFile.reset_latch _ p, RegFile.reset_pull _ p⟩, rfl, rfl⟩
  · obtain ⟨c, ws, rfl⟩ := mem_resetCtrls hk
    exact ⟨rfl, rfl, rfl, rfl⟩
  · rw [getElem?_resetBlock, Option.map_map]
    rfl

end Sys2Proof.Machine
end

section
/-! Proof of the statement of 70_reset_and_hazards.md about the bound on a command in flight (O54, R38, R239, R240). A
micro-op step within a program answers or is refused, and one that answers ends the command or brings it one step further.
Undisturbed turns are then an induction on the steps left; interleaved ones an induction on the stretch of the schedule,
in which no other turn takes a command a step back. -/

namespace Sys2Proof.Machine

/-! ## No fault -/

/-- A program has a micro-op at exactly the steps below its length (R38, R239). -/
theorem microOp_isSome_iff {c : Command} {n : Nat} {t : Word} :
    (microOp c n t).isSome = true ↔ n < programLength c := by
  cases c with
  | openCmd => simp [microOp, programLength]
  | closeCmd => simp [microOp, programLength]
  | setPull pin mode => match n with
    | 0 | 1 | 2 | 3 | 4 | 5 | 6 => simp [microOp, setPullOp, pullOp, programLength]
    | n + 7 => simp [microOp, setPullOp, pullOp, programLength]
  | setup pin dir mode => match n with
    | 0 | 1 | 2 | 3 | 4 | 5 | 6 | 7 | 8 => simp [microOp, setupOp, pullOp, programLength]
    | n + 9 => simp [microOp, setupOp, pullOp, programLength]
  | output pin level => match n with
    | 0 => simp [microOp, outputOp, programLength]
    | 1 => cases level <;> simp [microOp, outputOp, programLength]
    | n + 2 => simp [microOp, outputOp, programLength]
  | input pin => match n with
    | 0 | 1 => simp [microOp, inputOp, programLength]
    | n + 2 => simp [microOp, inputOp, programLength]

theorem programLength_le_nine (c : Command) : programLength c ≤ 9 := by
  cases c <;> simp [programLength]

/-- An outcome that is no fault: a result, or a refusal. -/
def NoFault {α : Type} (o : Host.Outcome α Fault Refusal) : Prop := (∃ a, o = .next a) ∨ ∃ r, o = .refused r

theorem NoFault.next {α : Type} (a : α) : NoFault (.next a) := .inl ⟨a, rfl⟩

theorem NoFault.andThen {α β : Type} {o : Host.Outcome α Fault Refusal} {f : α → Host.Outcome β Fault Refusal}
    (h : NoFault o) (hf : ∀ a, NoFault (f a)) : NoFault (andThen o f) := by
  obtain ⟨a, rfl⟩ | ⟨r, rfl⟩ := h
  · exact hf a
  · exact .inr ⟨r, rfl⟩

theorem AnswersUniformly.noFault {f : State → Result} (hf : AnswersUniformly f) (s : State) : NoFault (f s) := by
  obtain hnext | ⟨_, hrefuse⟩ := hf
  · exact .inl (hnext s)
  · exact .inr ⟨_, hrefuse s⟩

/-- A micro-op of a controller that there is can be refused on the bus, but does not fault. -/
theorem performMicro_noFault {s : State} {k : Ctrl} (hk : s.actor? = some k) (op : MicroOp) :
    NoFault (performMicro op s) := by
  cases op with
  | entry pin =>
    rw [performMicro, withActor_some hk]
    exact .next _
  | openWindow =>
    rw [performMicro, openWindow, withActor_some hk]
    split <;> exact .next _
  | closeWindow =>
    rw [performMicro, closeWindow, withActor_some hk]
    split <;> exact .next _
  | read i =>
    rw [performMicro, readReg, withActor_some hk]
    split
    · exact .next _
    · exact ((busRead_answersUniformly i).noFault s).andThen fun _ => .next _
  | write i v =>
    rw [performMicro, writeReg, withActor_some hk]
    split
    · exact .next _
    · exact ((busWrite_answersUniformly i v).noFault s).andThen fun _ => .next _

/-- A micro-op step within a program does not fault (R206). -/
theorem microStep_noFault {s : State} {k : Ctrl} {c : Command} (hk : s.actor? = some k) (hc : k.cmd = some c)
    (hlt : k.step < programLength c) : NoFault (microStep s) := by
  obtain ⟨op, hop⟩ := Option.isSome_iff_exists.mp (microOp_isSome_iff.mpr hlt)
  rw [microStep_eq hk hc hop]
  exact (performMicro_noFault hk op).andThen fun _ => .next _

/-! ## The progress of a command in flight -/

/-- A controller whose command ended with a response (R140). -/
def Ctrl.Answered (k : Ctrl) : Prop := k.cmd = none ∧ k.rsp ≠ none

/-- A micro-op step ends the command with a response, or brings it to the next step of its program (R140). -/
theorem microStep_progress {s t : State} {k : Ctrl} {c : Command} (hk : s.actor? = some k) (hc : k.cmd = some c)
    (h : microStep s = .next t) :
    ∃ k', t.actor? = some k' ∧
      (k'.Answered ∨ (k'.cmd = some c ∧ k'.step = k.step + 1 ∧ k'.step < programLength c)) := by
  obtain ⟨k₀, hk₀, ⟨hidle, -⟩ | ⟨c₀, op, r, hc₀, hop, hr, rfl⟩⟩ := microStep_cases h <;> cases hk.symm.trans hk₀
  · cases hc.symm.trans hidle
  cases hc.symm.trans hc₀
  have hlt : k.step < programLength c := microOp_isSome_iff.mp (Option.isSome_iff_exists.mpr ⟨op, hop⟩)
  obtain ⟨k₁, hk₁, hsame, -⟩ := performMicro_actor hk hr
  obtain ⟨st, b, e⟩ | ⟨-, hl, e⟩ := concludeMicro_cases c k.step r.2 r.1 <;> rw [e]
  · exact ⟨_, by rw [endCommand_actor, hk₁, Option.map_some], .inl ⟨rfl, Option.some_ne_none _⟩⟩
  · have hstep : k₁.advance.step = k.step + 1 := by rw [Ctrl.advance_step, hsame.step]
    exact ⟨k₁.advance, by rw [State.modifyActor_actor, hk₁, Option.map_some],
      .inr ⟨hsame.cmd.trans hc, hstep, hstep ▸ Nat.lt_of_le_of_ne hlt hl⟩⟩

/-! ## Undisturbed turns -/

/-- A family of states, by how many turns are still to come, in which every turn is one of the controller `c`, and what
follows a micro-op step of `c` is in the family again. -/
structure OnlyTurnsOf (c : Nat) (P : Nat → State → Prop) : Prop where
  turn : ∀ m s k, P (m + 1) s → s.ctrls[c]? = some k → k.cmd ≠ none →
    ∃ rest, step s = microStep (s.atTurn c rest) ∧ ∀ t, microStep (s.atTurn c rest) = .next t → P m t

/-- With nothing but its own turns to come, as many as its program has steps left, a command is answered or refused. -/
theorem OnlyTurnsOf.answered {c : Nat} {P : Nat → State → Prop} (hP : OnlyTurnsOf c P) {m : Nat} {s : State} {k : Ctrl}
    {cmd : Command} (hs : P m s) (hk : s.ctrls[c]? = some k) (hc : k.cmd = some cmd) (hlt : k.step < programLength cmd)
    (hm : programLength cmd ≤ k.step + m) :
    ∃ n, n ≤ m ∧ ((∃ t k', steps n s = .next t ∧ t.ctrls[c]? = some k' ∧ k'.Answered) ∨ ∃ r, steps n s = .refused r) := by
  induction m generalizing s k with
  | zero => omega
  | succ m ih =>
    obtain ⟨rest, hstep, hnext⟩ := hP.turn m s k hs hk (by simp [hc])
    have hactor : (s.atTurn c rest).actor? = some k := hk
    obtain ⟨t, ht⟩ | ⟨r, hr⟩ := microStep_noFault hactor hc hlt
    · obtain ⟨-, -, hcur, -⟩ := quiet_microStep ht
      obtain ⟨k', hk', hcase⟩ := microStep_progress hactor hc ht
      rw [State.actor?, hcur] at hk'
      have hsteps (n : Nat) : steps (n + 1) s = steps n t := by rw [steps, hstep, ht, andThen_next]
      obtain hend | ⟨hcmd, hadvance, hlt'⟩ := hcase
      · exact ⟨1, Nat.succ_pos m, .inl ⟨t, k', hsteps 0, hk', hend⟩⟩
      · obtain ⟨n, hn, h⟩ := ih (hnext t ht) hk' hcmd hlt' (by omega)
        exact ⟨n + 1, Nat.succ_le_succ hn, by rwa [hsteps]⟩
    · exact ⟨1, Nat.succ_pos m, .inr ⟨r, by rw [steps, hstep, hr, andThen_refused]⟩⟩

/-- No program has more than nine steps (R239), so nine turns of a command of sound sequencing are enough. -/
theorem OnlyTurnsOf.answered_within_nine {c : Nat} {P : Nat → State → Prop} (hP : OnlyTurnsOf c P) {s : State} {k : Ctrl}
    (hs : P 9 s) (hk : s.ctrls[c]? = some k) (hc : k.cmd ≠ none) (hsound : s.Sound) :
    ∃ n, n ≤ 9 ∧ ((∃ t k', steps n s = .next t ∧ t.ctrls[c]? = some k' ∧ k'.Answered) ∨ ∃ r, steps n s = .refused r) := by
  obtain ⟨cmd, hcmd⟩ := Option.ne_none_iff_exists'.mp hc
  obtain ⟨hlt, -⟩ := (Ctrl.sound_busy hcmd).mp (hsound k (List.mem_of_getElem? hk))
  exact hP.answered hs hk hcmd hlt (Nat.le_add_left_of_le (programLength_le_nine cmd))

/-- A schedule that gives `c` every turn for as long as is asked. -/
theorem onlyTurnsOf_replicate (c : Nat) (rest : List Turn) :
    OnlyTurnsOf c fun m s => s.refused = false ∧ s.sched = List.replicate m (.ctrl c) ++ rest where
  turn m s k h hk hc := by
    obtain ⟨hr, hs⟩ := h
    obtain ⟨cmd, hcmd⟩ := Option.ne_none_iff_exists'.mp hc
    refine ⟨_, step_ctrl_busy hr hs hk hcmd, fun t ht => ?_⟩
    obtain ⟨hrefused, -, -, hsched, -⟩ := quiet_microStep ht
    exact ⟨hrefused.trans hr, hsched⟩

/-- With an empty schedule a busy controller alone has every turn (log entry 2). -/
theorem step_sole_busy {s : State} {k : Ctrl} {cmd : Command} (hr : s.refused = false) (hs : s.sched = [])
    (hk : s.ctrls = [k]) (hc : k.cmd = some cmd) : step s = microStep (s.atTurn 0 []) := by
  have hbusy : k.cmd ≠ none := by simp [hc]
  have hk₀ : s.ctrls[0]? = some k := by rw [hk]; rfl
  obtain ⟨-, hmoves⟩ := idleBlockWaits s hr hs
  rw [hmoves 0 k hk₀ (.inl hbusy) nofun]
  exact step_ctrl_busy (s := { s with sched := [.ctrl 0] }) hr rfl hk₀ hc

/-- In the sole checked use with an empty schedule every turn is the one controller's, and answers (O52). -/
theorem onlyTurnsOf_sole : OnlyTurnsOf 0 fun _ s => s.SoloChecked ∧ s.sched = [] where
  turn _ s k h hk hc := by
    obtain ⟨hsolo, hs⟩ := h
    have ⟨hr, _, ⟨k₀, hk₀, _⟩, _⟩ := hsolo
    obtain rfl : k₀ = k := by simpa [hk₀] using hk
    obtain ⟨cmd, hcmd⟩ := Option.ne_none_iff_exists'.mp hc
    have hstep := step_sole_busy hr hs hk₀ hcmd
    refine ⟨[], hstep, fun t ht => ?_⟩
    obtain ⟨t', ht', hsolo'⟩ := checkedSoleUseIsSafe s hsolo
    cases (hstep.trans ht).symm.trans ht'
    obtain ⟨-, -, -, hsched, -⟩ := quiet_microStep ht
    exact ⟨hsolo', hsched⟩

theorem safe_steps (n : Nat) {s : State} (h : s.SoloChecked) : Safe (steps n s) := by
  induction n generalizing s with
  | zero => exact ⟨s, rfl, h⟩
  | succ n ih =>
    obtain ⟨t, ht, hsolo⟩ := checkedSoleUseIsSafe s h
    rw [steps, ht, andThen_next]
    exact ih hsolo

/-! ## Interleaved turns -/

/-- The command of the controller that was `k` has ended, or is as far as it was, or further. -/
def Ctrl.NotBehind (k k' : Ctrl) : Prop := k'.cmd = none ∨ k.step ≤ k'.step

theorem Ctrl.NotBehind.refl (k : Ctrl) : k.NotBehind k := .inr (Nat.le_refl _)

/-- A micro-op step takes a command in flight no step back, and an idle controller stays idle. -/
theorem microStep_notBehind {s t : State} {k k₁ : Ctrl} (hk : s.actor? = some k₁) (hle : k.NotBehind k₁)
    (h : microStep s = .next t) : ∃ k', t.actor? = some k' ∧ k.NotBehind k' := by
  cases hc : k₁.cmd with
  | none =>
    obtain ⟨k₀, hk₀, ⟨-, rfl⟩ | ⟨_, _, _, hbusy, -⟩⟩ := microStep_cases h <;> cases hk.symm.trans hk₀
    · exact ⟨k₁, hk, hle⟩
    · cases hc.symm.trans hbusy
  | some c =>
    obtain ⟨k', hk', ⟨hidle, -⟩ | ⟨-, hadvance, -⟩⟩ := microStep_progress hk hc h
    · exact ⟨k', hk', .inl hidle⟩
    · have hstep : k.step ≤ k₁.step := hle.resolve_left (by simp [hc])
      exact ⟨k', hk', .inr (by omega)⟩

theorem runToEnd_notBehind {n : Nat} {s t : State} {k : Ctrl} (hk : s.actor? = some k) (h : runToEnd n s = .next t) :
    ∃ k', t.actor? = some k' ∧ k.NotBehind k' :=
  runToEnd_keeps (P := fun u => ∃ k', u.actor? = some k' ∧ k.NotBehind k')
    (fun _ _ ⟨_, hk', hle⟩ e => microStep_notBehind hk' hle e) n s t ⟨k, hk, .refl k⟩ h

/-- A busy controller takes no command (R216), and no other instruction takes its command a step back. -/
theorem exec_notBehind {i : Instr} {s t : State} {k : Ctrl} (hk : s.actor? = some k) (hc : k.cmd ≠ none)
    (h : exec i s = .next t) : ∃ k', t.actor? = some k' ∧ k.NotBehind k' := by
  obtain ⟨c, e⟩ | ⟨op, -, e⟩ | ⟨n, e⟩ | ⟨n, v, e⟩ := exec_meaning i
  all_goals rw [e] at h
  · rw [runCommand, acceptCommand_busy hk hc] at h
    cases h
  · obtain ⟨⟨u, er⟩, hu, hsettle⟩ := andThen_eq_next h
    obtain ⟨k', hk', hsame, -⟩ := performMicro_actor hk hu
    cases hsettle
    cases er with
    | none => exact ⟨k', hk', .inr (Nat.le_of_eq hsame.step.symm)⟩
    | some st =>
      exact ⟨k'.finish (rspWord st false) (Config.freeTemp u.draws u.cur), by
        rw [endCommand_actor, hk', Option.map_some], .inl rfl⟩
  · exact ⟨k, by rw [busRead_actor h, hk], .refl k⟩
  · exact ⟨k, by rw [busWrite_actor h, hk], .refl k⟩

/-- A move other than a reset acts on one controller (R213, R230). -/
theorem Move.quiet_or_reset {u t : State} (m : Move u t) : Quiet u t ∨ t = resetBlock u := by
  cases m with
  | wait => exact .inl (.refl u)
  | micro h => exact .inl (quiet_microStep h)
  | toEnd h => exact .inl (quiet_runToEnd h)
  | accept ws c h =>
    obtain ⟨k, -, -, rfl⟩ := acceptCommand_cases h
    exact .inl ((quiet_modifyActor u _).trans (quiet_modifyActor _ _))
  | reject ws h =>
    obtain ⟨k, -, -, rfl⟩ := rejectCommand_cases h
    exact .inl ((quiet_modifyActor u _).trans (quiet_modifyActor _ _))
  | command ws i h => exact .inl ((quiet_modifyActor u _).trans (instructionsActOnOneController i _ _ h))
  | access i h => exact .inl (instructionsActOnOneController i _ _ h)
  | reset => exact .inr rfl

theorem Move.sched {u t : State} (m : Move u t) : t.sched = u.sched := by
  obtain ⟨-, -, -, hsched, -⟩ | rfl := m.quiet_or_reset
  · exact hsched
  · rfl

/-- A move of the controller itself takes its command no step back. -/
theorem Move.actor_notBehind {u t : State} {k : Ctrl} (m : Move u t) (hk : u.actor? = some k) (hc : k.cmd ≠ none) :
    ∃ k', t.actor? = some k' ∧ k.NotBehind k' := by
  cases m with
  | wait => exact ⟨k, hk, .refl k⟩
  | micro h => exact microStep_notBehind hk (.refl k) h
  | toEnd h => exact runToEnd_notBehind hk h
  | accept ws c h =>
    rw [acceptCommand_busy (withPending_actor_some hk ws) hc] at h
    cases h
  | reject ws h =>
    obtain ⟨k', hk', hidle, -⟩ := rejectCommand_cases h
    cases (withPending_actor_some hk ws).symm.trans hk'
    exact absurd hidle hc
  | command ws i h => exact exec_notBehind (k := { k with pending := ws }) (withPending_actor_some hk ws) hc h
  | access i h => exact exec_notBehind hk hc h
  | reset => exact ⟨Ctrl.reset u.draws u.cur k.pending, (getElem?_resetBlock u u.cur).trans (congrArg _ hk), .inl rfl⟩

/-- Whoever moves, a command in flight ends or is no step back (R38, R213). -/
theorem Move.notBehind {u t : State} {c : Nat} {k : Ctrl} (m : Move u t) (hk : u.ctrls[c]? = some k)
    (hc : k.cmd ≠ none) : ∃ k', t.ctrls[c]? = some k' ∧ k.NotBehind k' := by
  obtain ⟨-, -, hcur, -, hothers⟩ | rfl := m.quiet_or_reset
  · by_cases hacts : c = u.cur
    · subst hacts
      have hactor := m.actor_notBehind hk hc
      rwa [State.actor?, hcur] at hactor
    · exact ⟨k, (hothers c hacts).trans hk, .refl k⟩
  · exact ⟨Ctrl.reset u.draws c k.pending, (getElem?_resetBlock u c).trans (congrArg _ hk), .inl rfl⟩

/-- A turn, whoever has it, takes a command in flight no step back. -/
theorem step_notBehind {s t : State} {a : Turn} {rest : List Turn} {c : Nat} {k : Ctrl} (hs : s.sched = a :: rest)
    (hk : s.ctrls[c]? = some k) (hc : k.cmd ≠ none) (h : step s = .next t) :
    t.sched = rest ∧ ∃ k', t.ctrls[c]? = some k' ∧ k.NotBehind k' := by
  obtain ⟨hr, -⟩ := step_cases h
  rw [step_of_sched hr hs] at h
  obtain ⟨c', m⟩ := move_fetchTurn h
  exact ⟨m.sched, m.notBehind hk hc⟩

/-- A turn of the busy controller itself ends its command, or brings it to a further step, of which there are nine. -/
theorem step_own_turn {s t : State} {rest : List Turn} {c : Nat} {k : Ctrl} (hs : s.sched = .ctrl c :: rest)
    (hk : s.ctrls[c]? = some k) (hc : k.cmd ≠ none) (h : step s = .next t) :
    ∃ k', t.ctrls[c]? = some k' ∧ (k'.cmd = none ∨ (k.step < k'.step ∧ k'.step < 9)) := by
  obtain ⟨hr, -⟩ := step_cases h
  obtain ⟨cmd, hcmd⟩ := Option.ne_none_iff_exists'.mp hc
  rw [step_ctrl_busy hr hs hk hcmd] at h
  obtain ⟨-, -, hcur, -⟩ := quiet_microStep h
  obtain ⟨k', hk', hcase⟩ := microStep_progress (s := s.atTurn c rest) hk hcmd h
  rw [State.actor?, hcur] at hk'
  obtain ⟨hidle, -⟩ | ⟨-, hadvance, hlt⟩ := hcase
  · exact ⟨k', hk', .inl hidle⟩
  · exact ⟨k', hk', .inr ⟨by omega, Nat.lt_of_lt_of_le hlt (programLength_le_nine cmd)⟩⟩

/-- Within a stretch of the schedule that runs through, a busy controller becomes idle if the steps its command has made
and its own turns to come, of which there is one at least, are nine. -/
theorem idle_within {s t : State} {c : Nat} {k : Ctrl} {l rest : List Turn} (hk : s.ctrls[c]? = some k)
    (hs : s.sched = l ++ rest) (hpos : 0 < l.count (.ctrl c)) (hnine : 9 ≤ k.step + l.count (.ctrl c))
    (h : steps l.length s = .next t) :
    ∃ n u k', n ≤ l.length ∧ steps n s = .next u ∧ u.ctrls[c]? = some k' ∧ k'.cmd = none := by
  induction l generalizing s k with
  | nil => cases hpos
  | cons a l ih =>
    by_cases hc : k.cmd = none
    · exact ⟨0, s, k, Nat.zero_le _, rfl, hk, hc⟩
    rw [List.length_cons, steps] at h
    obtain ⟨u, hu, hrest⟩ := andThen_eq_next h
    obtain ⟨hsched, hnotBehind⟩ := step_notBehind hs hk hc hu
    have hfurther : ∃ k', u.ctrls[c]? = some k' ∧
        (k'.cmd = none ∨ (0 < l.count (.ctrl c) ∧ 9 ≤ k'.step + l.count (.ctrl c))) := by
      by_cases ha : a = .ctrl c
      · obtain ⟨k', hk', hcase⟩ := step_own_turn (ha ▸ hs) hk hc hu
        rw [ha, List.count_cons_self] at hnine
        exact ⟨k', hk', hcase.imp_right fun ⟨hlt, hlt9⟩ => by omega⟩
      · obtain ⟨k', hk', hcase⟩ := hnotBehind
        rw [List.count_cons_of_ne ha] at hpos hnine
        exact ⟨k', hk', hcase.imp_right fun hle => by omega⟩
    obtain ⟨k', hk', hidle | ⟨hpos', hnine'⟩⟩ := hfurther
    · exact ⟨1, u, k', Nat.succ_pos _, by rw [steps, hu, andThen_next, steps], hk', hidle⟩
    · obtain ⟨n, v, k'', hn, hv, hidle⟩ := ih hk' hsched hpos' hnine' hrest
      exact ⟨n + 1, v, k'', Nat.succ_le_succ hn, by rw [steps, hu, andThen_next, hv], hidle⟩

/-- Settles O54: each own turn of a busy controller brings its command one of at most nine steps further or ends it, no
other turn takes it a step back, and in the sole checked use no step is refused. -/
theorem commandEndsWithinNineSteps : Obligations.CommandEndsWithinNineSteps := by
  refine ⟨fun s c k rest hsound hr hk hc hs => ?undisturbed, fun s t c k l rest hk hc hs hnine h => ?interleaved,
    fun s k hsolo hs hk hc => ?sole⟩
  case undisturbed =>
    exact (onlyTurnsOf_replicate c rest).answered_within_nine ⟨hr, hs⟩ hk hc hsound
  case interleaved =>
    exact idle_within hk hs (by omega) (by omega) h
  case sole =>
    obtain ⟨n, hn, hcase⟩ := onlyTurnsOf_sole.answered_within_nine ⟨hsolo, hs⟩ (by rw [hk]; rfl) hc hsolo.sound
    obtain ⟨t, ht, -, -, ⟨k', hk', -⟩, -⟩ := safe_steps n hsolo
    rw [ht] at hcase
    obtain ⟨_, k'', ht', hk'', hidle, hrsp⟩ | ⟨r, hr⟩ := hcase
    · cases ht'
      obtain rfl : k' = k'' := by simpa [hk'] using hk''
      exact ⟨n, t, k', hn, ht, hk', hidle, hrsp⟩
    · cases hr

end Sys2Proof.Machine
end
